-- ==== Sys2Proof/Word.lean ====
section
/-! DEFINITION. The plain types every layer shares: bytes, frames, the part's numbers, and how one
element of a fixed-length vector is replaced. -/

namespace Sys2Proof

/-- One byte of a frame (R198: bytes are shifted most significant bit first). -/
abbrev Byte := BitVec 8

/-- The 32 bytes moved in one direction in one transaction (R198). -/
abbrev Frame := Vector Byte 32

/-- The result area of a response part, bytes 9 to 29 of the frame (R212). -/
abbrev ResultArea := Vector Byte 21

/-- An axis number, 0 to 7. -/
abbrev AxisNo := Fin 8

/-- A line number, 0 to 15. -/
abbrev LineNo := Fin 16

/-- A gate input number, 0 to 3. -/
abbrev GateNo := Fin 4

/-- A slot number, 0 to 383 (R1). -/
abbrev SlotNo := Fin 384

/-- The generation of a slot, 0 to 63, counted modulo 64 (R2). -/
abbrev Generation := BitVec 6

/-- The electrical level of a pin, numbered HIGH 0, LOW 1 as the lists of R9 and R134 give them. -/
inductive Level where
  | high
  | low
deriving DecidableEq, Repr

/-- `v` with the element at `i` replaced by `x`. -/
def put {α : Type} {n : Nat} (v : Vector α n) (i : Fin n) (x : α) : Vector α n :=
  v.set i.val x i.isLt

/-- `f` applied to every element, by recursion on the list of elements. -/
def mapAll {α β : Type} {n : Nat} (f : α → β) (v : Vector α n) : Vector β n :=
  ⟨⟨v.toList.map f⟩, by simp⟩

/-- The vector whose element at `i` is `f i`. -/
def tabulate {α : Type} {n : Nat} (f : Fin n → α) : Vector α n :=
  ⟨⟨(List.finRange n).map f⟩, by simp⟩

/-- The first `n` elements of `l`, filled up with `d`. -/
def fill {α : Type} (n : Nat) (d : α) (l : List α) : Vector α n :=
  ⟨⟨(l ++ List.replicate n d).take n⟩, by simp⟩

end Sys2Proof
end

