-- ==== Sys2Proof/Syntax.lean ====
section
/-! DEFINITION. The commands: one constructor for each row of spec/opcode_table.json. A row that completes
a request has no operand of its own: the fields are in the request frame that is in progress (R151, R211). -/

namespace Sys2Proof

/-- The commands of the TS816, in the table's order. -/
inductive Instr where
  /-- RESETn falls and is taken as hardware reset (R215). -/
  | hardwareReset
  /-- RESETn rises (R215). -/
  | resetEnd
  /-- SCSn falls (R199). -/
  | transactionStart
  /-- SCSn rises; `sdi` holds the SDI bit sampled at each rising edge of SCK, in order (R198, R201). -/
  | transactionEnd (sdi : List Bool)
  /-- The Schedule Manager takes the head request (R152). -/
  | takeRequest
  /-- The request in progress has a code that names no request (R154). -/
  | unknown
  /-- Direct ADD-TRIP (R158). -/
  | addTrip
  /-- Direct MODIFY-TRIP (R160). -/
  | modifyTrip
  /-- Direct RETIRE-TRIP (R165). -/
  | retireTrip
  /-- Direct HOLD-TRIP (R166). -/
  | holdTrip
  /-- Direct ARM-TRIP (R167). -/
  | armTrip
  /-- QUERY-TRIP (R169). -/
  | queryTrip
  /-- SCAN-AXIS (R172). -/
  | scanAxis
  /-- GET-BRACKET (R39). -/
  | getBracket
  /-- WIPE-STORE (R25). -/
  | wipeStore
  /-- READ-NOTICES (R143). -/
  | readNotices
  /-- ACK-NOTICES (R145). -/
  | ackNotices
  /-- OPEN-BATCH (R178). -/
  | openBatch
  /-- ADD-TRIP with the batch flag set (R182). -/
  | stagedAddTrip
  /-- MODIFY-TRIP with the batch flag set (R181). -/
  | stagedModifyTrip
  /-- RETIRE-TRIP with the batch flag set (R181). -/
  | stagedRetireTrip
  /-- HOLD-TRIP with the batch flag set (R181). -/
  | stagedHoldTrip
  /-- ARM-TRIP with the batch flag set (R181). -/
  | stagedArmTrip
  /-- COMMIT-BATCH (R185). -/
  | commitBatch
  /-- DISCARD-BATCH (R192). -/
  | discardBatch
  /-- CONFIG-AXIS (R73). -/
  | configAxis
  /-- UNPARK-AXIS (R75). -/
  | unparkAxis
  /-- ESTABLISH-AXIS (R76). -/
  | establishAxis
  /-- RESUME-AXIS (R84). -/
  | resumeAxis
  /-- PARK-AXIS (R86). -/
  | parkAxis
  /-- AXIS-STATUS (R89). -/
  | axisStatus
  /-- POST-POSITION (R68). -/
  | postPosition
  /-- DRIVE-LINE (R131). -/
  | driveLine
  /-- CONFIG-LINE (R133). -/
  | configLine
  /-- LINE-STATUS (R134). -/
  | lineStatus
  /-- The pins XAn and XBn change to the levels `a` and `b`, as one resolved change (R51). -/
  | quadEdge (axis : AxisNo) (a b : Level)
  /-- A rising edge of XZn (R54). -/
  | indexEvent (axis : AxisNo)
  /-- The sample timer of the axis expires (R57). -/
  | sampleTimerExpiry (axis : AxisNo)
  /-- No sync bit is sampled in the 120 clock periods after the poll word (R59). -/
  | pollTimeout (axis : AxisNo)
  /-- The poll ends; `reply` holds the XBn bits sampled after the poll word, in order (R59, R61). -/
  | pollEnd (axis : AxisNo) (reply : List Bool)
  /-- The dwell of the last applied claim of the line completes (R124). -/
  | dwellEnd (line : LineNo)
  /-- The pulse timer of the line expires (R127). -/
  | pulseExpiry (line : LineNo)
  /-- INHn changes to `level` (R130). -/
  | inhibitChange (level : Level)
  /-- The gate input changes to `level` (R96). -/
  | gateChange (gate : GateNo) (level : Level)
deriving DecidableEq, Repr

end Sys2Proof
end

