-- ==== Sys2Proof/Config.lean ====
section
/-! DEFINITION. What the part fixes as numbers, and the values the spec leaves open. -/

namespace Sys2Proof.Config

/-- Places of the request queue and of the response queue (R197). -/
def queuePlaces : Nat := 8

/-- Places of the staging list (R180). -/
def stagingPlaces : Nat := 24

/-- Places of a claim list (R122). -/
def claimPlaces : Nat := 16

/-- Ticks of the model's clock in one µs: a tick is 0.1 µs, the dwell of R124 (log entry 2). -/
def ticksPerMicrosecond : Nat := 10

/-- The dwell of an applied claim in ticks (R124). -/
def dwellTicks : Nat := 1

/-- Clock periods of the sync search before its timeout (R59). -/
def syncSearchBits : Nat := 120

/-- FREE VALUE (log entry 9). Check 4 of R73 sets the reference method against the source; the spec does not
say which of the two its BAD_FIELD names. True: the source. -/
opaque methodCheckNamesSource : Bool

/-- FREE VALUE (log entry 9). Check 5 of R73 judges R + O; the spec does not say which of the two its
BAD_FIELD names. True: the offset. -/
opaque sumCheckNamesOffset : Bool

/-- FREE VALUE (log entry 22). A line request in progress may be carried out just before a claim of a walk to its line arrives; the
`k`-th time that both can come first, this says whether it is (R132 to R134). -/
opaque lineRequestFirst : Nat → Bool

end Sys2Proof.Config
end

