-- ==== Sys2Proof/Machine/State.lean ====
section
/-! DEFINITION. Everything the spec gives the TS816, as plain data, and its value after hardware reset. The
constructors of each enumeration stand in the order in which the field's rule lists the values, which is the
order that numbers them in a frame (R211). -/

namespace Sys2Proof.Machine

/-! ### Axes (chapters 3 and 4) -/

/-- Source of an axis's positions (R48, R72). -/
inductive Source where
  | quad
  | link
  | host
deriving DecidableEq, Repr

/-- Span of an axis; the modulus is held only while it is ROTARY (R72). -/
inductive Span where
  | linear
  | rotary (modulus : Nat)
deriving DecidableEq, Repr

/-- Reference method (R72). -/
inductive RefMethod where
  | none
  | index
  | absolute
  | host
deriving DecidableEq, Repr

/-- The configuration record of an axis (R72), with its defaults after hardware reset. -/
structure AxisConfig where
  source : Source := .quad
  countInvert : Bool := false
  span : Span := .linear
  method : RefMethod := .none
  refValue : Int := 0
  offset : Int := 0
  slewGuard : Nat := 0
  quota : Nat := 0
  wordWidth : Nat := 24
  samplePeriod : Nat := 250
  failureLimit : Nat := 3
deriving DecidableEq, Repr

/-- Axis state (R74). -/
inductive AxisState where
  | parked
  | unreferenced
  | tracking
  | suspect
  | faulted
deriving DecidableEq, Repr

/-- Last cause of an axis (R74). -/
inductive Cause where
  | none
  | slew
  | decode
  | range
  | link
  | encoder
deriving DecidableEq, Repr

/-- One axis: its pins as the world drives them, its configuration, its tracker (R74), its quadrature decoder
(R51, R71) and its position link receiver (R56). -/
structure Axis where
  /-- Level the world applies to XAn. -/
  xa : Level := .low
  /-- Level the world applies to XBn. -/
  xb : Level := .low
  config : AxisConfig := {}
  state : AxisState := .parked
  position : Int := 0
  seeking : Bool := false
  warn : Bool := false
  lastCause : Cause := .none
  decoderRunning : Bool := false
  /-- Last resolved levels of A and B (R51). -/
  lastPair : Level × Level := (.low, .low)
  /-- Moment of the next sample timer expiry; absent while the timer is stopped. -/
  sampleNext : Option Nat := Option.none
  /-- Poll in flight: the reply bits sampled so far (R56). -/
  poll : Option (List Bool) := Option.none
  /-- Consecutive failure count (R56). -/
  failures : Nat := 0
deriving DecidableEq, Repr

/-! ### Lines (chapter 6) -/

/-- Action of a record or a claim (R9, R11). -/
inductive Action where
  | set
  | clear
  | toggle
  | pulse
deriving DecidableEq, Repr

/-- Logical level of a line (R122). -/
inductive Logical where
  | active
  | inactive
deriving DecidableEq, Repr

/-- Polarity of a line (R122). -/
inductive Polarity where
  | highActive
  | lowActive
deriving DecidableEq, Repr

/-- A claim: its action, its width for PULSE, and whether it came from a DRIVE-LINE request (R122). -/
structure LineClaim where
  action : Action
  width : Option Nat
  fromRequest : Bool
deriving DecidableEq, Repr

/-- A line driver (R122), with its values after hardware reset. -/
structure LineDriver where
  level : Logical := .inactive
  polarity : Polarity := .highActive
  /-- Moment at which the pulse timer's time left reaches 0; absent while no pulse runs. -/
  pulseEnd : Option Nat := none
  /-- Claims not yet applied, in arrival order. -/
  claims : List LineClaim := []
  /-- Moment of the last application. -/
  dwellStart : Option Nat := none
  dwellCut : Bool := false
deriving DecidableEq, Repr

/-! ### The trip store (chapters 1, 2, 5 and 7) -/

/-- A handle whose numbers are in range (R3). -/
structure Handle where
  slot : SlotNo
  gen : Generation
deriving DecidableEq, Repr

/-- Qualifier of a record (R9). -/
inductive Qualifier where
  | rising
  | falling
  | either
deriving DecidableEq, Repr

/-- Travel direction of an update (R40), and last direction of a record (R9). -/
inductive Travel where
  | rising
  | falling
deriving DecidableEq, Repr

/-- A gate field: the input and the level it must have (R13). -/
structure Gate where
  input : GateNo
  level : Level
deriving DecidableEq, Repr

/-- Notify mode of a record (R9). -/
inductive Notify where
  | none
  | fire
  | ended
  | both
deriving DecidableEq, Repr

/-- End mode of a record (R9). -/
inductive EndMode where
  | keep
  | release
deriving DecidableEq, Repr

/-- Record state (R9). -/
inductive RecordState where
  | dormant
  | armed
  | held
  | spent
deriving DecidableEq, Repr

/-- The pending kinds of a record (R9, R140). -/
structure RecordKinds where
  fired : Bool := false
  spent : Bool := false
  overtaken : Bool := false
deriving DecidableEq, Repr

/-- The fields of a trip record that the host gives (R157). -/
structure TripFields where
  axis : AxisNo
  position : Int
  qualifier : Qualifier
  action : Action
  line : LineNo
  width : Option Nat
  pitch : Option Nat
  repeats : Option Nat
  successor : Option Handle
  gate : Option Gate
  notify : Notify
  endMode : EndMode
  tag : Nat
  /-- In a request the initial state; in a record its state. -/
  state : RecordState
deriving DecidableEq, Repr

/-- A trip record (R9): the host's fields and those the store keeps. Its handle is its slot with the
slot's generation. -/
structure TripRecord extends TripFields where
  fireCount : Nat := 0
  lastDirection : Option Travel := Option.none
  predCount : Nat := 0
  pending : RecordKinds := {}
deriving DecidableEq, Repr

/-- What a slot holds (R1). -/
inductive SlotContent where
  | free
  | reserved (r : TripRecord)
  | live (r : TripRecord)
deriving DecidableEq, Repr

/-- A slot: its generation and what it holds (R1, R2). -/
structure Slot where
  gen : Generation := 0
  content : SlotContent := .free
deriving DecidableEq, Repr

/-- The axis entry of the notice set: each pending kind, with its cause (R139). Empty: no entry. -/
structure AxisEntry where
  referenced : Bool := false
  suspect : Option Cause := Option.none
  faulted : Option Cause := Option.none
deriving DecidableEq, Repr

/-- The trip store (R27): slots, order lists, occupancy counts, axis entries of the notice set, and the attention
line. The record entries of the notice set are the pending kinds of the LIVE records (R140). -/
structure Store where
  slots : Vector Slot 384 := Vector.replicate 384 {}
  lists : Vector (List SlotNo) 8 := Vector.replicate 8 []
  occupancy : Vector Nat 8 := Vector.replicate 8 0
  axisNotices : Vector AxisEntry 8 := Vector.replicate 8 {}
  /-- The attention line is asserted. -/
  attention : Bool := false
deriving DecidableEq, Repr

/-! ### The Schedule Manager (chapters 8 and 9) -/

/-- A change entry of an optional field (R159). -/
inductive Change (α : Type) where
  | keep
  | set (v : α)
  | remove
deriving DecidableEq, Repr

/-- The change entries of a MODIFY-TRIP with their values (R159); `none` is KEEP for a field that is always
present. -/
structure Changes where
  position : Option Int
  qualifier : Option Qualifier
  action : Option Action
  line : Option LineNo
  width : Change Nat
  pitch : Change Nat
  repeats : Change Nat
  successor : Change Handle
  gate : Change Gate
  notify : Option Notify
  endMode : Option EndMode
  tag : Option Nat
deriving DecidableEq, Repr

/-- A staged operation with its request fields, and for ADD the reserved handle (R180). -/
inductive StagedOp where
  | add (fields : TripFields) (reserved : Handle)
  | modify (target : Handle) (changes : Changes)
  | retire (target : Handle)
  | hold (target : Handle)
  | arm (target : Handle)
deriving DecidableEq, Repr

/-- An entry of the staging list (R180). -/
structure StagedEntry where
  op : StagedOp
  tag : Byte
deriving DecidableEq, Repr

/-- The Schedule Manager (R151). -/
structure Manager where
  inProgress : Option Frame := none
  batchOpen : Bool := false
  staging : List StagedEntry := []
deriving DecidableEq, Repr

/-! ### The command port (chapter 10) -/

/-- Completion codes, in the order of their values (section 10.6.2). -/
inductive Completion where
  | done
  | accepted
  | staged
  | stale
  | notLive
  | full
  | quota
  | inUse
  | wrongState
  | wrongSource
  | badField
  | badLink
  | batchOpen
  | noBatch
  | batchFull
  | commitFailed
  | unknown
deriving DecidableEq, Repr

/-- How the port judged a frame (R197), in the order of the values of byte 3 (section 10.5.2). -/
inductive FrameOutcome where
  | accepted
  | nop
  | badLength
  | frameCheck
  | queueFull
deriving DecidableEq, Repr

/-- A response part: bytes 5 to 29 of its frame (R212). -/
structure ResponsePart where
  code : Byte
  tag : Byte
  completion : Completion
  part : Nat
  parts : Nat
  result : ResultArea
deriving DecidableEq, Repr

/-- A transaction in progress: its outgoing frame, whether that is a response part, and the clock cycles counted
so far (R197). -/
structure Transaction where
  outgoing : Frame
  sendsPart : Bool
  clocks : Nat
deriving DecidableEq, Repr

/-- The command port (R197), with its values after hardware reset. -/
structure Port where
  requestQueue : List Frame := []
  responseQueue : List ResponsePart := []
  lastOutcome : FrameOutcome := .nop
  lastTag : Byte := 0
  resetFlag : Bool := true
  transaction : Option Transaction := none
deriving DecidableEq, Repr

/-! ### The whole part -/

/-- The TS816, and the queue of the commands that wait for it. -/
structure State where
  /-- The Timebase, in ticks of 0.1 µs (log entry 2). -/
  now : Nat := 0
  /-- RESETn is low. -/
  resetLow : Bool := false
  scsn : Level := .high
  inhn : Level := .high
  gates : Vector Level 4 := Vector.replicate 4 .low
  axes : Vector Axis 8 := Vector.replicate 8 {}
  lines : Vector LineDriver 16 := Vector.replicate 16 {}
  store : Store := {}
  manager : Manager := {}
  port : Port := {}
  /-- How often a choice between a line request and a claim of a walk has been met; it picks the free value of the next one (the
  model's own field, log entry 22). -/
  choices : Nat := 0
  /-- The commands that wait, first in, first out (the model's own field). -/
  pending : List Instr := []
deriving DecidableEq, Repr

/-- The part after the rise of RESETn, with its input pins at the levels of log entry 6 and no command
waiting. -/
def State.reset : State := {}

/-- No rule of the spec stops the part, so no command faults. -/
inductive Fault where
deriving DecidableEq, Repr

/-- Why a command has no meaning. -/
inductive Refusal where
  /-- Raised by an arm of `exec` whose command has no meaning yet; safe, since the run stops there. No arm
  of this model raises it. -/
  | notModelled (mnemonic : String)
deriving DecidableEq, Repr

end Sys2Proof.Machine
end

