-- ==== Sys2Proof/Machine/Bytes.lean ====
section
/-! DEFINITION. Bits, bytes and checks: the order of bits and bytes on the port (R198, R211), the frame check (R202)
and the check of a link reply (R60). -/

namespace Sys2Proof.Machine

/-- The number whose bits are `bits`, most significant first. -/
def bitsToNat (bits : List Bool) : Nat :=
  bits.foldl (fun n b => 2 * n + b.toNat) 0

/-- The bits of a byte, most significant first (R198). -/
def byteBits (b : Byte) : List Bool :=
  (List.range 8).map b.getMsbD

/-- Byte `k` of the bits sampled in a transaction (R198). -/
def sampledByte (bits : List Bool) (k : Nat) : Byte :=
  BitVec.ofNat 8 (bitsToNat ((bits.drop (8 * k)).take 8))

/-- The 32 bytes that the first 256 sampled bits make (R198). -/
def frameOfBits (bits : List Bool) : Frame :=
  fill 32 0 ((List.range 32).map (sampledByte bits))

/-- One bit of the frame check, polynomial x^16+x^12+x^5+1 (R202). -/
def crc16Step (c : BitVec 16) (b : Bool) : BitVec 16 :=
  if c.msb ^^ b then (c <<< 1) ^^^ 0x1021#16 else c <<< 1

/-- The frame check over `bytes`, initial value FFFFH (R202). -/
def crc16 (bytes : List Byte) : BitVec 16 :=
  (bytes.flatMap byteBits).foldl crc16Step 0xFFFF#16

/-- One bit of the reply check, polynomial x^8+x^2+x+1 (R60). -/
def crc8Step (c : BitVec 8) (b : Bool) : BitVec 8 :=
  if c.msb ^^ b then (c <<< 1) ^^^ 0x07#8 else c <<< 1

/-- The check of a reply over the bits received, initial value 0 (R60). -/
def crc8 (bits : List Bool) : BitVec 8 :=
  bits.foldl crc8Step 0#8

/-- Bytes 0 to 29 followed by their frame check, high byte first (R202). -/
def sealFrame (bytes : List Byte) : Frame :=
  fill 32 0 (bytes ++ [(crc16 bytes).extractLsb' 8 8, (crc16 bytes).extractLsb' 0 8])

/-- The frame check of an incoming frame passes (R202). -/
def frameCheckPasses (f : Frame) : Bool :=
  decide (f = sealFrame (f.toList.take 30))

/-! ### Reading a request frame (R211) -/

/-- Byte `k` of a frame. -/
def byteAt (f : Frame) (k : Nat) : Byte :=
  f.toList.getD k 0

/-- The one-byte number at byte `k`. -/
def u8 (f : Frame) (k : Nat) : Nat :=
  (byteAt f k).toNat

/-- The two-byte number that begins at byte `k`, most significant byte first. -/
def u16 (f : Frame) (k : Nat) : Nat :=
  256 * u8 f k + u8 f (k + 1)

/-- The four-byte unsigned number that begins at byte `k`. -/
def u32 (f : Frame) (k : Nat) : Nat :=
  65536 * u16 f k + u16 f (k + 2)

/-- The four-byte two's complement number that begins at byte `k`. -/
def i32 (f : Frame) (k : Nat) : Int :=
  (BitVec.ofNat 32 (u32 f k)).toInt

/-- Bits 7 to 4 of byte `k`. -/
def highHalf (f : Frame) (k : Nat) : Nat :=
  u8 f k / 16

/-- Bits 3 to 0 of byte `k`. -/
def lowHalf (f : Frame) (k : Nat) : Nat :=
  u8 f k % 16

/-- Bit `i` of byte `k`, bit 0 the least significant. -/
def bitAt (f : Frame) (k i : Nat) : Bool :=
  (byteAt f k).getLsbD i

/-! ### Writing a result area (R212, R213) -/

/-- A one-byte number. -/
def be8 (n : Nat) : List Byte :=
  [BitVec.ofNat 8 n]

/-- A two-byte number, most significant byte first. -/
def be16 (n : Nat) : List Byte :=
  [BitVec.ofNat 8 (n / 256), BitVec.ofNat 8 n]

/-- A four-byte number, two's complement when negative, most significant byte first. -/
def be32 (x : Int) : List Byte :=
  let v := BitVec.ofInt 32 x
  [v.extractLsb' 24 8, v.extractLsb' 16 8, v.extractLsb' 8 8, v.extractLsb' 0 8]

/-- Two values of lists that share a byte. -/
def halves (hi lo : Nat) : List Byte :=
  [BitVec.ofNat 8 (16 * hi + lo)]

/-- A flag: 1 for set, 0 for clear. -/
def flagByte (b : Bool) : List Byte :=
  [BitVec.ofNat 8 b.toNat]

/-- A byte whose bit 0 is the first of `bits`, as a presence byte and a set of kinds are laid out. -/
def bitsByte (bits : List Bool) : List Byte :=
  [BitVec.ofNat 8 (bitsToNat bits.reverse)]

/-- A handle: slot in bits 15 to 6, generation in bits 5 to 0. -/
def handleBytes (h : Handle) : List Byte :=
  be16 (64 * h.slot.val + h.gen.toNat)

/-- An optional item keeps its place of `n` bytes when it is absent (R213). -/
def optionalBytes {α : Type} (n : Nat) (item : α → List Byte) : Option α → List Byte
  | some x => item x
  | none => List.replicate n 0

end Sys2Proof.Machine
end

