-- ==== Sys2Proof/Machine/Ops.lean ====
section
/-! DEFINITION. The operations the commands share: results of requests, the response queue, the trip store's slots,
lists, counts, links, releases and notices, and the passing of time. -/

namespace Sys2Proof.Machine

/-! ### Results of a request -/

/-- A field as a BAD_FIELD names it: the number of its first byte in the request frame, and the number of its
most significant bit in that byte (R213). -/
structure FieldPlace where
  byte : Nat
  bit : Nat
deriving DecidableEq, Repr

/-- A refusal: its completion code and the items its rule gives (R212). -/
structure Refused where
  code : Completion
  items : List Byte
deriving DecidableEq, Repr

/-- The result of checks: a value, or the first refusal (R177). -/
abbrev Verdict (α : Type) := Except Refused α

/-- What a completed request answers: its completion code and the items of each part (R153, R212). -/
structure Reply where
  code : Completion
  parts : List (List Byte)
deriving DecidableEq, Repr

/-- A refusal without items. -/
def refuse (c : Completion) : Refused :=
  ⟨c, []⟩

/-- BAD_FIELD naming the field at `byte`, `bit` (R213). -/
def badField (byte bit : Nat) : Refused :=
  ⟨.badField, be8 byte ++ be8 bit⟩

/-- Goes on when `ok` holds; refuses with `r` otherwise. -/
def require (ok : Bool) (r : Refused) : Verdict Unit :=
  if ok then .ok () else .error r

/-- The value, or BAD_FIELD naming its place when there is none. -/
def fieldOr {α : Type} (byte bit : Nat) : Option α → Verdict α
  | some x => .ok x
  | none => .error (badField byte bit)

/-- DONE with one part. -/
def doneWith (items : List Byte) : Reply :=
  ⟨.done, [items]⟩

/-- The value of a completion code (section 10.6.2). -/
def completionValue : Completion → Nat
  | .done => 0
  | .accepted => 1
  | .staged => 2
  | .stale => 3
  | .notLive => 4
  | .full => 5
  | .quota => 6
  | .inUse => 7
  | .wrongState => 8
  | .wrongSource => 9
  | .badField => 10
  | .badLink => 11
  | .batchOpen => 12
  | .noBatch => 13
  | .batchFull => 14
  | .commitFailed => 15
  | .unknown => 16

/-- The response group of a request: its parts numbered from 1 (R153, R212). -/
def responseGroup (f : Frame) (r : Reply) : List ResponsePart :=
  r.parts.zipIdx.map fun (items, k) =>
    { code := byteAt f 0, tag := byteAt f 1, completion := r.code, part := k + 1,
      parts := r.parts.length, result := fill 21 0 items }

/-- A request completes: its response group joins the tail of the response queue and no request is in
progress (R155). -/
def respond (f : Frame) (r : Reply) (s : State) : State :=
  { s with
    port := { s.port with responseQueue := s.port.responseQueue ++ responseGroup f r }
    manager := { s.manager with inProgress := none } }

/-- The answer to a request whose claim gave `v`: a refusal is one part and changes nothing else (R153, R177). -/
def answer (f : Frame) (v : Verdict (State × Reply)) (s : State) : State :=
  match v with
  | .ok (t, r) => respond f r t
  | .error e => respond f ⟨e.code, [e.items]⟩ s

/-- The request in progress, when its code is `code` and the part is not in reset (R151, R215). -/
def requestOf (code : Nat) (s : State) : Option Frame :=
  if s.resetLow then none
  else match s.manager.inProgress with
    | some f => if u8 f 0 = code then some f else none
    | none => none

/-- The batch flag of a request (section 10.5.1). -/
def batchFlag (f : Frame) : Bool :=
  bitAt f 2 0

/-- The request in progress with code `code` and the batch flag as given (R154). -/
def recordRequestOf (code : Nat) (staged : Bool) (s : State) : Option Frame :=
  match requestOf code s with
  | some f => if batchFlag f = staged then some f else none
  | none => none

/-- Carries out the request in progress, if there is one; nothing happens otherwise (log entry 4). -/
def serve (request : Option Frame) (claim : Frame → State → Verdict (State × Reply)) (s : State) :
    Host.Outcome State Fault Refusal :=
  match request with
  | some f => .next (answer f (claim f s) s)
  | none => .next s

/-- The batch flag may not be set on this request: it is the field at byte 2, bit 0 (R154, R213). -/
def noBatchFlag (f : Frame) : Verdict Unit :=
  require (!batchFlag f) (badField 2 0)

/-! ### Time -/

/-- Time passes until the moment `t`; none passes when it is reached already. -/
def advanceTo (t : Nat) (s : State) : State :=
  { s with now := max s.now t }

/-- One tick of the Timebase passes (log entry 1). -/
def tick (s : State) : State :=
  { s with now := s.now + 1 }

/-! ### One axis, one line, the store -/

/-- `s` with axis `n` replaced. -/
def setAxis (n : AxisNo) (a : Axis) (s : State) : State :=
  { s with axes := put s.axes n a }

/-- `s` with line driver `l` replaced. -/
def setLine (l : LineNo) (d : LineDriver) (s : State) : State :=
  { s with lines := put s.lines l d }

/-- `s` with the trip store replaced. -/
def setStore (st : Store) (s : State) : State :=
  { s with store := st }

/-! ### Positions -/

/-- The least signed 32-bit count. -/
def minCount : Int := -2147483648

/-- The greatest signed 32-bit count. -/
def maxCount : Int := 2147483647

/-- The range of an axis's positions (R10). -/
def inRange : Span → Int → Bool
  | .linear, p => decide (minCount ≤ p ∧ p ≤ maxCount)
  | .rotary m, p => decide (0 ≤ p ∧ p < m)

/-- A position the part computes, reduced modulo M on a rotary axis (R74). -/
def reduce : Span → Int → Int
  | .linear, p => p
  | .rotary m, p => p % m

/-! ### Slots -/

/-- The record of a LIVE slot. -/
def liveAt (st : Store) (i : SlotNo) : Option TripRecord :=
  match st.slots[i].content with
  | .live r => some r
  | .free | .reserved _ => none

/-- The LIVE record that a handle names: the slot is LIVE and the generations agree (R3, R6). -/
def liveAs (st : Store) (h : Handle) : Option TripRecord :=
  if st.slots[h.slot].gen = h.gen then liveAt st h.slot else none

/-- The handle of the occupant of a slot (R3). -/
def handleOf (st : Store) (i : SlotNo) : Handle :=
  ⟨i, st.slots[i].gen⟩

/-- The slot's content replaced; its generation stays (R2). -/
def setContent (i : SlotNo) (c : SlotContent) (st : Store) : Store :=
  { st with slots := put st.slots i { st.slots[i] with content := c } }

/-- The record of a LIVE slot replaced. -/
def setLive (i : SlotNo) (r : TripRecord) (st : Store) : Store :=
  setContent i (.live r) st

/-- The slot is FREE. -/
def isFree (st : Store) (i : SlotNo) : Bool :=
  decide (st.slots[i].content = .free)

/-- The lowest-numbered FREE slot (R7). -/
def lowestFree (st : Store) : Option SlotNo :=
  (List.finRange 384).find? (isFree st)

/-- A LIVE or RESERVED slot becomes FREE: its generation goes up by one modulo 64 and its axis's occupancy
count down by one (R2, R8). -/
def freeSlot (i : SlotNo) (st : Store) : Store :=
  match st.slots[i].content with
  | .free => st
  | .reserved r | .live r =>
    { st with
      slots := put st.slots i ⟨st.slots[i].gen + 1, .free⟩
      occupancy := put st.occupancy r.axis (st.occupancy[r.axis] - 1) }

/-- The axis's occupancy count goes up by one (R8). -/
def raiseOccupancy (n : AxisNo) (st : Store) : Store :=
  { st with occupancy := put st.occupancy n (st.occupancy[n] + 1) }

/-- The LIVE records of an axis, SPENT included (R89). -/
def liveCount (st : Store) (n : AxisNo) : Nat :=
  st.slots.toList.countP fun sl =>
    match sl.content with
    | .live r => decide (r.axis = n)
    | .free | .reserved _ => false

/-- The RESERVED records of an axis (R89). -/
def reservedCount (st : Store) (n : AxisNo) : Nat :=
  st.slots.toList.countP fun sl =>
    match sl.content with
    | .reserved r => decide (r.axis = n)
    | .free | .live _ => false

/-! ### Order lists -/

/-- The position of a slot's record. -/
def positionOf (st : Store) (i : SlotNo) : Int :=
  match st.slots[i].content with
  | .live r | .reserved r => r.position
  | .free => 0

/-- `i` inserted at position `p` directly after the last entry at or below `p` of a sorted list (R30). -/
def placeIn (pos : SlotNo → Int) (i : SlotNo) (p : Int) : List SlotNo → List SlotNo
  | [] => [i]
  | j :: rest => if pos j ≤ p then j :: placeIn pos i p rest else i :: j :: rest

/-- Placement of the record of slot `i` in the list of axis `n` at position `p` (R30). -/
def place (n : AxisNo) (i : SlotNo) (p : Int) (st : Store) : Store :=
  { st with lists := put st.lists n (placeIn (positionOf st) i p st.lists[n]) }

/-- Removal of slot `i` from the list of axis `n`; the others keep their order (R33). -/
def unlist (n : AxisNo) (i : SlotNo) (st : Store) : Store :=
  { st with lists := put st.lists n (st.lists[n].filter (· ≠ i)) }

/-- Re-placement: the record of slot `i` becomes `r` and stands as the newest of its equals at
`r.position` (R32). -/
def rePlace (i : SlotNo) (r : TripRecord) (st : Store) : Store :=
  place r.axis i r.position (setLive i r (unlist r.axis i st))

/-! ### Successor links and release -/

/-- The predecessor count of the named record goes up by one (R18). -/
def raisePred (h : Handle) (st : Store) : Store :=
  match liveAs st h with
  | some r => setLive h.slot { r with predCount := r.predCount + 1 } st
  | none => st

/-- The predecessor count of the named record goes down by one (R18). -/
def lowerPred (h : Handle) (st : Store) : Store :=
  match liveAs st h with
  | some r => setLive h.slot { r with predCount := r.predCount - 1 } st
  | none => st

/-- The link to an optional successor, counted. -/
def link (o : Option Handle) (st : Store) : Store :=
  match o with
  | some h => raisePred h st
  | none => st

/-- The link to an optional successor, no longer counted. -/
def unlink (o : Option Handle) (st : Store) : Store :=
  match o with
  | some h => lowerPred h st
  | none => st

/-- No kind is pending. -/
def noKinds (k : RecordKinds) : Bool :=
  !k.fired && !k.spent && !k.overtaken

/-- The three conditions of a release, on a record with end mode RELEASE (R21). -/
def releasable (r : TripRecord) : Bool :=
  decide (r.state = .spent) && decide (r.endMode = .release) && noKinds r.pending && decide (r.predCount = 0)

/-- The release check of the named record and the chain along its successors (R21, R22). `fuel` bounds the
chain by the number of slots: each release frees one (log entry 17). -/
def releaseFrom : Nat → Handle → Store → Store
  | 0, _, st => st
  | fuel + 1, h, st =>
    match liveAs st h with
    | none => st
    | some r =>
      if releasable r then
        match r.successor with
        | none => freeSlot h.slot st
        | some h' => releaseFrom fuel h' (lowerPred h' (freeSlot h.slot st))
      else st

/-- The release check of a record, with its chain followed to its end (R21, R22). -/
def releaseCheck (h : Handle) (st : Store) : Store :=
  releaseFrom 384 h st

/-- The release check of an optional former successor (R19). -/
def releaseCheckOf (o : Option Handle) (st : Store) : Store :=
  match o with
  | some h => releaseCheck h st
  | none => st

/-! ### The notice set -/

/-- The axis has an entry in the notice set (R139). -/
def hasAxisEntry (e : AxisEntry) : Bool :=
  e.referenced || e.suspect.isSome || e.faulted.isSome

/-- The slot's record has an entry in the notice set (R140). -/
def hasRecordEntry (sl : Slot) : Bool :=
  match sl.content with
  | .live r => !noKinds r.pending
  | .free | .reserved _ => false

/-- The notice set is not empty (R138). -/
def noticesWaiting (st : Store) : Bool :=
  st.axisNotices.toList.any hasAxisEntry || st.slots.toList.any hasRecordEntry

/-- The attention line at the end of a claim (R142). -/
def settle (st : Store) : Store :=
  { st with attention := noticesWaiting st }

/-! ### Handles in requests -/

/-- The handle at byte `k` of a request; none when its slot is above 383 (R4 row 1, R213). -/
def handleAt (f : Frame) (k : Nat) : Option Handle :=
  let slot := u16 f k / 64
  if h : slot < 384 then some ⟨⟨slot, h⟩, BitVec.ofNat 6 (u16 f k)⟩ else none

/-- Resolution of a target handle of a direct request, rows 2 to 5 (R4). -/
def resolve (st : Store) (h : Handle) : Verdict TripRecord :=
  match st.slots[h.slot].content with
  | .free => .error (refuse .stale)
  | .reserved _ => if st.slots[h.slot].gen = h.gen then .error (refuse .notLive) else .error (refuse .stale)
  | .live r => if st.slots[h.slot].gen = h.gen then .ok r else .error (refuse .stale)

/-- The target handle at byte 3 of a direct request, with the LIVE record it names (R4). -/
def target (f : Frame) (st : Store) : Verdict (Handle × TripRecord) := do
  let h ← fieldOr 3 7 (handleAt f 3)
  let r ← resolve st h
  return (h, r)

/-- A successor handle must name a LIVE record (R5). -/
def successorLive (st : Store) (o : Option Handle) : Verdict Unit :=
  match o with
  | some h => require (liveAs st h).isSome (refuse .badLink)
  | none => .ok ()

end Sys2Proof.Machine
end

