-- ==== Sys2Proof/Machine/Operands.lean ====
section
/-! DEFINITION. The operands of requests: the numbers of the values of lists (R211), and the fields of a request frame
read from their places (R213) and checked in the order of their tables. -/

namespace Sys2Proof.Machine

/-! ### Values of lists (R211) -/

/-- RISING 0, FALLING 1, EITHER 2. -/
def qualifierOf : Nat → Option Qualifier
  | 0 => some .rising
  | 1 => some .falling
  | 2 => some .either
  | _ => none

/-- The number of a qualifier. -/
def qualifierCode : Qualifier → Nat
  | .rising => 0
  | .falling => 1
  | .either => 2

/-- The number of a last direction: RISING 0, FALLING 1. -/
def travelCode : Travel → Nat
  | .rising => 0
  | .falling => 1

/-- SET 0, CLEAR 1, TOGGLE 2, PULSE 3. -/
def actionOf : Nat → Option Action
  | 0 => some .set
  | 1 => some .clear
  | 2 => some .toggle
  | 3 => some .pulse
  | _ => none

/-- The number of an action. -/
def actionCode : Action → Nat
  | .set => 0
  | .clear => 1
  | .toggle => 2
  | .pulse => 3

/-- HIGH 0, LOW 1. -/
def levelOf : Nat → Option Level
  | 0 => some .high
  | 1 => some .low
  | _ => none

/-- The number of a level. -/
def levelCode : Level → Nat
  | .high => 0
  | .low => 1

/-- NONE 0, FIRE 1, END 2, BOTH 3. -/
def notifyOf : Nat → Option Notify
  | 0 => some .none
  | 1 => some .fire
  | 2 => some .ended
  | 3 => some .both
  | _ => none

/-- The number of a notify mode. -/
def notifyCode : Notify → Nat
  | .none => 0
  | .fire => 1
  | .ended => 2
  | .both => 3

/-- KEEP 0, RELEASE 1. -/
def endModeOf : Nat → Option EndMode
  | 0 => some .keep
  | 1 => some .release
  | _ => none

/-- The number of an end mode. -/
def endModeCode : EndMode → Nat
  | .keep => 0
  | .release => 1

/-- The number of a record state: DORMANT 0, ARMED 1, HELD 2, SPENT 3 (R213). -/
def stateCode : RecordState → Nat
  | .dormant => 0
  | .armed => 1
  | .held => 2
  | .spent => 3

/-- An initial state: DORMANT 0 or ARMED 1 (R14, R157 check 13). -/
def initialStateOf : Nat → Option RecordState
  | 0 => some .dormant
  | 1 => some .armed
  | _ => none

/-- QUAD 0, LINK 1, HOST 2. -/
def sourceOf : Nat → Option Source
  | 0 => some .quad
  | 1 => some .link
  | 2 => some .host
  | _ => none

/-- Count invert: off 0, on 1. -/
def offOnOf : Nat → Option Bool
  | 0 => some false
  | 1 => some true
  | _ => none

/-- NONE 0, INDEX 1, ABSOLUTE 2, HOST 3. -/
def methodOf : Nat → Option RefMethod
  | 0 => some .none
  | 1 => some .index
  | 2 => some .absolute
  | 3 => some .host
  | _ => none

/-- The number of an axis state (R74). -/
def axisStateCode : AxisState → Nat
  | .parked => 0
  | .unreferenced => 1
  | .tracking => 2
  | .suspect => 3
  | .faulted => 4

/-- The number of a cause (R74). -/
def causeCode : Cause → Nat
  | .none => 0
  | .slew => 1
  | .decode => 2
  | .range => 3
  | .link => 4
  | .encoder => 5

/-- The number of a logical level: ACTIVE 0, INACTIVE 1 (R122). -/
def logicalCode : Logical → Nat
  | .active => 0
  | .inactive => 1

/-- HIGH-ACTIVE 0, LOW-ACTIVE 1 (R122). -/
def polarityOf : Nat → Option Polarity
  | 0 => some .highActive
  | 1 => some .lowActive
  | _ => none

/-- The number of a polarity. -/
def polarityCode : Polarity → Nat
  | .highActive => 0
  | .lowActive => 1

/-- A number below `n`, as the axis, line and gate numbers of a request are. -/
def finOf (n k : Nat) : Option (Fin n) :=
  if h : k < n then some ⟨k, h⟩ else none

/-- The axis number at byte 3, where the axis requests carry it; above 7 is BAD_FIELD (R154). -/
def axisOperand (f : Frame) : Verdict AxisNo :=
  fieldOr 3 7 (finOf 8 (u8 f 3))

/-! ### The checks of R157 -/

/-- `n` when it is not 0. -/
def nonZero (n : Nat) : Option Nat :=
  if n = 0 then none else some n

/-- `n` when it lies in `lo` to `hi`. -/
def within (lo hi n : Nat) : Option Nat :=
  if lo ≤ n ∧ n ≤ hi then some n else none

/-- `p` when it is in the axis's range (R157 check 2). -/
def positionIn (sp : Span) (p : Int) : Option Int :=
  if inRange sp p then some p else none

/-- The greatest pitch on an axis (R157 check 7). -/
def maxPitch : Span → Nat
  | .linear => 1073741824
  | .rotary m => m - 1

/-- A width is present, and not 0, exactly with action PULSE (R11, R157 check 6). -/
def widthFits (a : Action) (w : Option Nat) : Bool :=
  match a, w with
  | .pulse, some w => w != 0
  | .pulse, none => false
  | _, some _ => false
  | _, none => true

/-- A gate: input in bits 7 to 4, level in bits 3 to 0 (R213). -/
def gateOf (f : Frame) (k : Nat) : Option Gate :=
  match finOf 4 (highHalf f k), levelOf (lowHalf f k) with
  | some i, some l => some ⟨i, l⟩
  | _, _ => none

/-- An optional item: absent, or present and read by `read`, which refuses a bad value (R213). -/
def optionalField {α : Type} (present : Bool) (byte bit : Nat) (read : Option α) : Verdict (Option α) :=
  if present then do
    let x ← fieldOr byte bit read
    return some x
  else return none

/-- The fields of an ADD-TRIP, checked one by one in the order of R157. `cfg` gives the configuration of the axis
named. -/
def readTripFields (cfg : AxisNo → AxisConfig) (f : Frame) : Verdict TripFields := do
  let axis ← fieldOr 4 7 (finOf 8 (u8 f 4))
  let position ← fieldOr 5 7 (positionIn (cfg axis).span (i32 f 5))
  let qualifier ← fieldOr 9 7 (qualifierOf (highHalf f 9))
  let action ← fieldOr 9 3 (actionOf (lowHalf f 9))
  let line ← fieldOr 10 7 (finOf 16 (u8 f 10))
  let width := if bitAt f 3 0 then some (u16 f 11) else none
  require (widthFits action width) (badField 11 7)
  let pitch ← optionalField (bitAt f 3 1) 13 7 (within 1 (maxPitch (cfg axis).span) (u32 f 13))
  let repeats ← optionalField (bitAt f 3 2) 17 7 (nonZero (u16 f 17))
  let successor ← optionalField (bitAt f 3 3) 19 7 (handleAt f 19)
  let gate ← optionalField (bitAt f 3 4) 21 7 (gateOf f 21)
  let notify ← fieldOr 22 7 (notifyOf (highHalf f 22))
  let endMode ← fieldOr 22 3 (endModeOf (lowHalf f 22))
  let state ← fieldOr 25 7 (initialStateOf (u8 f 25))
  return { axis, position, qualifier, action, line, width, pitch, repeats, successor, gate, notify, endMode,
           tag := u16 f 23, state }

/-! ### MODIFY-TRIP -/

/-- The two bits of the change entry of the `i`-th field of the table of R9, in bytes 5 to 9 (R213). -/
def entryBits (f : Frame) (i : Nat) : Nat :=
  u8 f (5 + i / 4) / 4 ^ (3 - i % 4) % 4

/-- A change entry that R159 refuses, for the `i`-th field of the table of R9: 3 is no change entry, only the
fields position (2) to tag (13) may change, and only width (6) to gate (10) may be removed. -/
def entryRefused (i e : Nat) : Bool :=
  e == 3 || (e != 0 && !(2 ≤ i && i ≤ 13)) || (e == 2 && !(6 ≤ i && i ≤ 10))

/-- The change entries of R159; a refused one is named by its own two bits (R213). No rule says which of several refused entries is
named; that it is the first in the order of the table of R9 is the model's choice (log entry 24). -/
def checkEntries (f : Frame) : Verdict Unit :=
  match (List.range 19).find? (fun i => entryRefused i (entryBits f i)) with
  | some i => .error (badField (5 + i / 4) (7 - 2 * (i % 4)))
  | none => .ok ()

/-- The value of a field that is always present, when its entry is SET. -/
def setField {α : Type} (e byte bit : Nat) (read : Option α) : Verdict (Option α) :=
  optionalField (e == 1) byte bit read

/-- The change of an optional field. -/
def changeField {α : Type} (e byte bit : Nat) (read : Option α) : Verdict (Change α) :=
  if e = 1 then do
    let x ← fieldOr byte bit read
    return .set x
  else return (if e = 2 then .remove else .keep)

/-- A field after its change. -/
def applyChange {α : Type} : Change α → Option α → Option α
  | .keep, o => o
  | .set v, _ => some v
  | .remove, _ => none

/-- The position that a change carries is in the axis's range now (R160 check 4). -/
def positionFits (sp : Span) (p : Option Int) : Bool :=
  match p with
  | some p => inRange sp p
  | none => true

/-- The pitch that a change carries is in the axis's range now (R160 check 4). -/
def pitchFits (sp : Span) : Change Nat → Bool
  | .set v => decide (1 ≤ v ∧ v ≤ maxPitch sp)
  | .keep | .remove => true

/-- The width and the action that the record would have agree (R11, R160 check 4). -/
def widthAfterFits (r : TripRecord) (action : Option Action) (width : Change Nat) : Bool :=
  widthFits (action.getD r.action) (applyChange width r.width)

/-- The values of a MODIFY-TRIP, checked in the order of the table of R157. With `judge`, the configuration of the
target's axis and the target, the checks that depend on them are made as well, each in its place (R160 check 4);
without, only those that hold for any axis and any record (R181), where the order is the model's choice (log entry 24). -/
def readChanges (judge : Option (AxisConfig × TripRecord)) (f : Frame) : Verdict Changes := do
  let position := if entryBits f 2 = 1 then some (i32 f 10) else none
  require (judge.all fun (c, _) => positionFits c.span position) (badField 10 7)
  let qualifier ← setField (entryBits f 3) 14 7 (qualifierOf (highHalf f 14))
  let action ← setField (entryBits f 4) 14 3 (actionOf (lowHalf f 14))
  let line ← setField (entryBits f 5) 15 7 (finOf 16 (u8 f 15))
  let width ← changeField (entryBits f 6) 16 7 (nonZero (u16 f 16))
  require (judge.all fun (_, r) => widthAfterFits r action width) (badField 16 7)
  let pitch ← changeField (entryBits f 7) 18 7 (within 1 (maxPitch .linear) (u32 f 18))
  require (judge.all fun (c, _) => pitchFits c.span pitch) (badField 18 7)
  let repeats ← changeField (entryBits f 8) 22 7 (nonZero (u16 f 22))
  let successor ← changeField (entryBits f 9) 24 7 (handleAt f 24)
  let gate ← changeField (entryBits f 10) 26 7 (gateOf f 26)
  let notify ← setField (entryBits f 11) 27 7 (notifyOf (highHalf f 27))
  let endMode ← setField (entryBits f 12) 27 3 (endModeOf (lowHalf f 27))
  let tag := if entryBits f 13 = 1 then some (u16 f 28) else none
  return { position, qualifier, action, line, width, pitch, repeats, successor, gate, notify, endMode, tag }

/-- Check 4 of R160 for a staged MODIFY at commit: the checks that were not made at its staging (R187). -/
def judgeChanges (c : AxisConfig) (r : TripRecord) (ch : Changes) : Verdict Unit := do
  require (positionFits c.span ch.position) (badField 10 7)
  require (widthAfterFits r ch.action ch.width) (badField 16 7)
  require (pitchFits c.span ch.pitch) (badField 18 7)

/-- The record after a MODIFY-TRIP; the fields that the store keeps and the state stay (R161). -/
def changed (r : TripRecord) (ch : Changes) : TripRecord :=
  { r with
    position := ch.position.getD r.position
    qualifier := ch.qualifier.getD r.qualifier
    action := ch.action.getD r.action
    line := ch.line.getD r.line
    width := applyChange ch.width r.width
    pitch := applyChange ch.pitch r.pitch
    repeats := applyChange ch.repeats r.repeats
    successor := applyChange ch.successor r.successor
    gate := applyChange ch.gate r.gate
    notify := ch.notify.getD r.notify
    endMode := ch.endMode.getD r.endMode
    tag := ch.tag.getD r.tag }

/-! ### CONFIG-AXIS -/

/-- A value that must lie in `lo` to `hi`. -/
def rangeField (byte lo hi n : Nat) : Verdict Nat :=
  fieldOr byte 7 (within lo hi n)

/-- The span of a CONFIG-AXIS: LINEAR 0, or ROTARY 1 with a modulus, which is read only then (R73). -/
def readSpan (f : Frame) : Verdict Span :=
  match u8 f 5 with
  | 0 => .ok .linear
  | 1 => do
    let m ← rangeField 6 16 1073741824 (u32 f 6)
    return .rotary m
  | _ => .error (badField 5 7)

/-- The configuration record of a CONFIG-AXIS, each field checked against its range (R72, R73 check 3). R73 gives no order within check
3; that the first failing field in frame order is the one named is the model's choice (log entry 23). -/
def readConfig (f : Frame) : Verdict AxisConfig := do
  let source ← fieldOr 4 7 (sourceOf (highHalf f 4))
  let countInvert ← fieldOr 4 3 (offOnOf (lowHalf f 4))
  let span ← readSpan f
  let method ← fieldOr 10 7 (methodOf (u8 f 10))
  let quota ← rangeField 21 0 384 (u16 f 21)
  let wordWidth ← rangeField 23 8 32 (u8 f 23)
  let samplePeriod ← rangeField 24 50 5000 (u16 f 24)
  let failureLimit ← rangeField 26 1 15 (u8 f 26)
  return { source, countInvert, span, method, refValue := i32 f 11, offset := i32 f 15,
           slewGuard := u16 f 19, quota, wordWidth, samplePeriod, failureLimit }

end Sys2Proof.Machine
end

