-- ==== Sys2Proof/Machine/Flags.lean ====
section
/-! DEFINITION. What the part shows: the status header of an outgoing frame (R206), and the levels of its output
pins (R129, R142, R48, R198, R216), all computed from State. -/

namespace Sys2Proof.Machine

/-! ### The status header -/

/-- The value of byte 3 of an outgoing frame (section 10.5.2). -/
def outcomeValue : FrameOutcome → Nat
  | .accepted => 0
  | .nop => 1
  | .badLength => 2
  | .frameCheck => 3
  | .queueFull => 4

/-- Bytes 0 to 4 of an outgoing frame; `sendsPart` is its frame kind (R206). -/
def statusHeader (s : State) (sendsPart : Bool) : List Byte :=
  be8 (Config.queuePlaces - s.port.requestQueue.length)
    ++ be8 s.port.responseQueue.length
    ++ bitsByte [s.store.attention, s.port.resetFlag, sendsPart]
    ++ be8 (outcomeValue s.port.lastOutcome)
    ++ [s.port.lastTag]

/-- Bytes 5 to 29 of a response part (R212). -/
def partBytes (p : ResponsePart) : List Byte :=
  [p.code, p.tag] ++ be8 (completionValue p.completion) ++ halves p.part p.parts ++ p.result.toList

/-- The outgoing frame of a transaction that starts now: the head response part, or an empty status frame
(R199, R208). -/
def outgoingFrame (s : State) : Frame :=
  match s.port.responseQueue with
  | p :: _ => sealFrame (statusHeader s true ++ partBytes p)
  | [] => sealFrame (statusHeader s false ++ List.replicate 25 0)

/-! ### Lines -/

/-- Inhibit is asserted while INHn is low (R130). -/
def inhibited (s : State) : Bool :=
  decide (s.inhn = .low)

/-- The other level. -/
def opposite : Level → Level
  | .high => .low
  | .low => .high

/-- The electrical level that shows ACTIVE under a polarity (R129). -/
def activeLevel : Polarity → Level
  | .highActive => .high
  | .lowActive => .low

/-- The electrical level of a trip pin, given inhibit (R129). -/
def pinLevel (inhibit : Bool) (d : LineDriver) : Level :=
  if !inhibit && decide (d.level = .active) then activeLevel d.polarity else opposite (activeLevel d.polarity)

/-- Pin Tn: driven low during reset, else as R129 gives (R137, R216). -/
def tripPin (s : State) (l : LineNo) : Level :=
  if s.resetLow then .low else pinLevel (inhibited s) s.lines[l]

/-- The pulse timer's time left, rounded up to a whole µs (R134). -/
def pulseLeft (now : Nat) (d : LineDriver) : Option Nat :=
  d.pulseEnd.map fun t => (t - now + (Config.ticksPerMicrosecond - 1)) / Config.ticksPerMicrosecond

/-- The number of the inhibit state in a response: asserted 0, released 1 (R134). -/
def inhibitCode (s : State) : Nat :=
  if inhibited s then 0 else 1

/-! ### The other output pins -/

/-- Pin ATNn: low while the attention line is asserted (R142); high during reset (R150). -/
def attentionPin (s : State) : Level :=
  if s.resetLow then .high else if s.store.attention then .low else .high

/-- What the part does to a pin that it does not always drive. -/
inductive PinDrive where
  /-- The part leaves the pin to the world. -/
  | released
  /-- The part holds the pin at a level. -/
  | driven (l : Level)
deriving DecidableEq, Repr

/-- The level that shows a bit: high for 1 (R59, R198). -/
def bitLevel (b : Bool) : Level :=
  if b then .high else .low

/-- The axis is a LINK axis, and its poll is in flight (R56, R59). -/
def pollRuns (a : Axis) : Bool :=
  decide (a.config.source = .link) && a.poll.isSome

/-- XAn: an input, or the link clock of a LINK axis, which idles high. While a poll is in flight the clock runs: of its half
periods, counted from 0 at the first falling edge, the even ones are low and the odd ones high (R48, R59, R71). -/
def xaDrive (s : State) (n : AxisNo) (half : Nat) : PinDrive :=
  if s.resetLow ∨ s.axes[n].config.source ≠ .link then .released
  else .driven (bitLevel (!pollRuns s.axes[n] || half % 2 == 1))

/-- The poll word that a poll begins with (R59). -/
def pollWord : List Bool := [true, false, true, false]

/-- XBn in clock period `k` of the poll in flight, counted from 0 at the first falling edge: one bit of the poll word in each
of the first four, and an input after them. Without a poll in flight it is an input (R48, R59). -/
def xbDrive (s : State) (n : AxisNo) (k : Nat) : PinDrive :=
  if s.resetLow ∨ pollRuns s.axes[n] = false then .released
  else
    match pollWord[k]? with
    | some b => .driven (bitLevel b)
    | none => .released

/-- Bit `k` of a frame, counted in the order of shifting: byte 0 first, most significant bit first (R198). -/
def shiftedBit (f : Frame) (k : Nat) : Bool :=
  if k < 256 then (byteAt f (k / 8)).getMsbD (k % 8) else false

/-- SDO at the `k`-th clock of the transaction in progress: high impedance without one, 0 bits past the 256th
clock (R198, R199). R198 and R216 give high impedance while SCSn is high, and R210 while RESETn is low; that SDO is at high impedance
also where SCSn stayed low through a reset and no transaction is in progress is the model's choice (log entry 25). -/
def sdoDrive (s : State) (k : Nat) : PinDrive :=
  match s.port.transaction with
  | none => .released
  | some t => .driven (bitLevel (shiftedBit t.outgoing k))

end Sys2Proof.Machine
end

