-- ==== Sys2Proof/Machine/Drivers.lean ====
section
/-! DEFINITION. Claims at a line driver: application (R125, R126), arrival (R123), the dwell (R124), and the answer to
a DRIVE-LINE at the application of its claim (R131); and what each line request does, on its own or between two claims of a walk
(R131 to R134). -/

namespace Sys2Proof.Machine

/-- A claim is applied at the moment `now`, and its dwell begins (R124 to R126). -/
def applyClaim (now : Nat) (c : LineClaim) (d : LineDriver) : LineDriver :=
  match c.action with
  | .set => { d with level := .active, pulseEnd := none, dwellStart := some now }
  | .clear => { d with level := .inactive, pulseEnd := none, dwellStart := some now }
  | .toggle =>
    { d with
      level := match d.level with
        | .active => .inactive
        | .inactive => .active
      pulseEnd := none
      dwellStart := some now }
  | .pulse =>
    { d with
      level := .active
      pulseEnd := some (now + Config.ticksPerMicrosecond * c.width.getD 0)
      dwellStart := some now }

/-- The dwell of the last applied claim is complete, or no claim has been applied since reset (R123, R124). -/
def dwellComplete (now : Nat) (d : LineDriver) : Bool :=
  match d.dwellStart with
  | some t => decide (t + Config.dwellTicks ≤ now)
  | none => true

/-- A claim arrives at a driver: the driver after it, and the claim that was applied at the arrival, if one was
(R123). -/
def arrive (now : Nat) (c : LineClaim) (d : LineDriver) : LineDriver × Option LineClaim :=
  match d.claims with
  | [] =>
    if dwellComplete now d then (applyClaim now c d, some c) else ({ d with claims := [c] }, none)
  | h :: rest =>
    if d.claims.length < Config.claimPlaces then ({ d with claims := d.claims ++ [c] }, none)
    else (applyClaim now h { d with claims := rest ++ [c], dwellCut := true }, some h)

/-- The items of a DRIVE-LINE response: logical level, pulse time left and inhibit state just after the
application (R131). That the time left is an optional item with a presence byte is the model's choice (log entry 12). -/
def driveItems (s : State) (d : LineDriver) : List Byte :=
  bitsByte [(pulseLeft s.now d).isSome]
    ++ be8 (logicalCode d.level)
    ++ optionalBytes 2 be16 (pulseLeft s.now d)
    ++ be8 (inhibitCode s)

/-- The request code of DRIVE-LINE (section 10.6.1). -/
def driveLineCode : Nat := 22

/-- The line that a DRIVE-LINE request frame names: byte 4, after the presence byte. -/
def drivenLine (f : Frame) : Option LineNo :=
  finOf 16 (u8 f 4)

/-- When the claim just applied at line `l` is the DRIVE-LINE's in progress, that request completes (R131, R155). -/
def finishDrive (l : LineNo) (applied : Option LineClaim) (s : State) : State :=
  match applied, requestOf driveLineCode s with
  | some c, some f =>
    if c.fromRequest ∧ drivenLine f = some l then respond f (doneWith (driveItems s s.lines[l])) s else s
  | _, _ => s

/-- A claim arrives at the driver of line `l` (R123). -/
def claimArrives (l : LineNo) (c : LineClaim) (s : State) : State :=
  let a := arrive s.now c s.lines[l]
  finishDrive l a.2 (setLine l a.1 s)

/-- The head of the claim list is applied, at the end of a dwell (R124). -/
def applyHead (l : LineNo) (s : State) : State :=
  match s.lines[l].claims with
  | [] => s
  | h :: rest =>
    finishDrive l (some h) (setLine l (applyClaim s.now h { s.lines[l] with claims := rest }) s)

/-! ### Line requests -/

/-- The claim of a DRIVE-LINE, after its checks (R131): its line and the claim. The frame holds a presence byte, the
line, the action and the width. Check 3 judges action and width together; that its BAD_FIELD names the width is the model's choice
(log entry 10). -/
def readDrive (f : Frame) : Verdict (LineNo × LineClaim) := do
  noBatchFlag f
  let l ← fieldOr 4 7 (drivenLine f)
  let action ← fieldOr 5 7 (actionOf (u8 f 5))
  let width := if bitAt f 3 0 then some (u16 f 6) else none
  require (widthFits action width) (badField 6 7)
  return (l, ⟨action, width, true⟩)

/-- A claim of the DRIVE-LINE in progress waits in the claim list of the line (R131, R155). -/
def driveWaits (l : LineNo) (s : State) : Bool :=
  s.lines[l].claims.any (·.fromRequest)

/-- CONFIG-LINE (R133). -/
def configLine (f : Frame) (s : State) : Verdict (State × Reply) := do
  noBatchFlag f
  let l ← fieldOr 3 7 (finOf 16 (u8 f 3))
  let p ← fieldOr 4 7 (polarityOf (u8 f 4))
  return (setLine l { s.lines[l] with polarity := p } s,
    doneWith (halves (polarityCode p) (logicalCode s.lines[l].level) ++ be8 (inhibitCode s)))

/-- The items of LINE-STATUS (R134). -/
def lineItems (s : State) (d : LineDriver) : List Byte :=
  bitsByte [(pulseLeft s.now d).isSome]
    ++ halves (logicalCode d.level) (polarityCode d.polarity)
    ++ optionalBytes 2 be16 (pulseLeft s.now d)
    ++ halves (inhibitCode s) (levelCode (pinLevel (inhibited s) d))
    ++ be8 d.claims.length
    ++ flagByte d.dwellCut

/-- LINE-STATUS: it reports, and clears dwell cut (R134). -/
def lineStatus (f : Frame) (s : State) : Verdict (State × Reply) := do
  noBatchFlag f
  let l ← fieldOr 3 7 (finOf 16 (u8 f 3))
  return (setLine l { s.lines[l] with dwellCut := false } s, doneWith (lineItems s s.lines[l]))

/-! ### Line requests and the claims of a walk -/

/-- The state after the DRIVE-LINE in progress has handed its claim to line `l`; none when it may not do so: it names another line,
fails a check, or has done so already (R131, R132). -/
def drivenAt (l : LineNo) (s : State) : Option State :=
  match requestOf driveLineCode s with
  | none => none
  | some f =>
    match readDrive f with
    | .error _ => none
    | .ok (k, c) => if k = l ∧ driveWaits l s = false then some (claimArrives l c s) else none

/-- The state after the CONFIG-LINE or LINE-STATUS of code `code` in progress has been carried out, when it names line `l` and passes its
checks (R133, R134). -/
def servedAt (code : Nat) (claim : Frame → State → Verdict (State × Reply)) (l : LineNo) (s : State) : Option State :=
  match requestOf code s with
  | none => none
  | some f =>
    match claim f s with
    | .error _ => none
    | .ok (t, r) => if finOf 16 (u8 f 3) = some l then some (respond f r t) else none

/-- The state after the line request in progress has been carried out at line `l`, if it can be (R131 to R134). -/
def lineRequestAt (l : LineNo) (s : State) : Option State :=
  (drivenAt l s).or ((servedAt 23 configLine l s).or (servedAt 24 lineStatus l s))

/-- Just before a claim of a walk arrives at line `l`: a line request to that line may come first, which the spec leaves open and a free
value decides (R98, R132 to R134, log entry 22). No rule says whether a second waiting line request, taken when the first completes
inside the walk (R152), may act before a later claim of it; that only the request in progress when the walk starts may is the
model's choice (log entries 16 and 22). -/
def beforeClaim (l : LineNo) (s : State) : State :=
  let met : State := { s with choices := s.choices + 1 }
  match lineRequestAt l met with
  | none => s
  | some t => if Config.lineRequestFirst s.choices then t else met

end Sys2Proof.Machine
end

