-- ==== Sys2Proof/Machine/Walk.lean ====
section
/-! DEFINITION. The position update at the store: travel and crossed interval (R40 to R43), the records met and their
order (R44, R45), passing and firing (R94, R97), and what the walk leaves (R111). -/

namespace Sys2Proof.Machine

/-- The signed travel from `p` to `p'`: exact on a linear axis (R40), the shortest way on a rotary one (R42). -/
def signedTravel (sp : Span) (p p' : Int) : Int :=
  match sp with
  | .linear => p' - p
  | .rotary m => if 2 * ((p' - p) % m) > m then (p' - p) % m - m else (p' - p) % m

/-- The travel distance, which the slew guard limits (R40, R42, R79). -/
def travelDistance (sp : Span) (p p' : Int) : Nat :=
  (signedTravel sp p p').natAbs

/-- The travel direction; none when the update has no travel (R40, R42, R47). -/
def travelOf (sp : Span) (p p' : Int) : Option Travel :=
  if 0 < signedTravel sp p p' then some .rising
  else if signedTravel sp p p' < 0 then some .falling
  else none

/-- One part of an interval: the counts `q` with `above < q` and `q ≤ upTo`. -/
structure Stretch where
  above : Int
  upTo : Int
deriving DecidableEq, Repr

/-- The count lies in the part. -/
def inStretch (q : Int) (x : Stretch) : Bool :=
  decide (x.above < q ∧ q ≤ x.upTo)

/-- The parts of the crossed interval in walk order (R41, R43). -/
def crossed (sp : Span) (d : Travel) (p p' : Int) : List Stretch :=
  match sp, d with
  | .linear, .rising => [⟨p, p'⟩]
  | .linear, .falling => [⟨p', p⟩]
  | .rotary m, .rising => if p' < p then [⟨p, m - 1⟩, ⟨-1, p'⟩] else [⟨p, p'⟩]
  | .rotary m, .falling => if p < p' then [⟨-1, p⟩, ⟨p', m - 1⟩] else [⟨p', p⟩]

/-- The remaining interval at a record met at `q`: what of the crossed interval comes after `q` (R93). -/
def remaining (d : Travel) (q : Int) : List Stretch → List Stretch
  | [] => []
  | x :: rest =>
    if inStretch q x then
      (match d with
        | .rising => ⟨q, x.upTo⟩
        | .falling => ⟨x.above, q - 1⟩) :: rest
    else remaining d q rest

/-- The list as a walk reads it: forward on RISING travel, backward on FALLING travel (R44). -/
def readOrder (d : Travel) (l : List SlotNo) : List SlotNo :=
  match d with
  | .rising => l
  | .falling => l.reverse

/-- The records the walk meets, in walk order, fixed when it begins (R44, R45). -/
def metSet (st : Store) (n : AxisNo) (d : Travel) (parts : List Stretch) : List SlotNo :=
  parts.flatMap fun x => (readOrder d st.lists[n]).filter fun i => inStretch (positionOf st i) x

/-- The qualifier lets a record fire on this travel (R94 row 2). -/
def qualifies (q : Qualifier) (d : Travel) : Bool :=
  match q, d with
  | .either, _ | .rising, .rising | .falling, .falling => true
  | .rising, .falling | .falling, .rising => false

/-- The gate, if present, is at its level (R94 row 3, R95). -/
def gateOpen (gates : Vector Level 4) (g : Option Gate) : Bool :=
  match g with
  | some g => decide (gates[g.input] = g.level)
  | none => true

/-- A record met fires: it is ARMED, its qualifier admits the travel and its gate is at its level (R94). -/
def fires (gates : Vector Level 4) (d : Travel) (r : TripRecord) : Bool :=
  decide (r.state = .armed) && qualifies r.qualifier d && gateOpen gates r.gate

/-- FIRED is raised at each firing (R13). -/
def notifiesFire : Notify → Bool
  | .fire | .both => true
  | .none | .ended => false

/-- SPENT is raised when the record becomes SPENT (R13). -/
def notifiesEnd : Notify → Bool
  | .ended | .both => true
  | .none | .fire => false

/-- The line claim of a firing (R98). -/
def claimOf (r : TripRecord) : LineClaim :=
  ⟨r.action, r.width, false⟩

/-- Steps 2 and 3 of a firing: fire count, last direction and FIRED (R99, R100). -/
def counted (d : Travel) (r : TripRecord) : TripRecord :=
  { r with
    fireCount := min (r.fireCount + 1) 65535
    lastDirection := some d
    pending := { r.pending with fired := r.pending.fired || notifiesFire r.notify } }

/-- Step 4: a DORMANT successor becomes ARMED at its place (R101). -/
def armSuccessor (o : Option Handle) (st : Store) : Store :=
  match o with
  | none => st
  | some h =>
    match liveAs st h with
    | some r => if r.state = .dormant then setLive h.slot { r with state := .armed } st else st
    | none => st

/-- The record becomes SPENT at a firing: state, list, SPENT kind, release check (R17, R104). -/
def becomeSpent (i : SlotNo) (r : TripRecord) (st : Store) : Store :=
  releaseCheck (handleOf st i)
    (setLive i
      { r with
        state := .spent
        pending := { r.pending with spent := r.pending.spent || notifiesEnd r.notify } }
      (unlist r.axis i st))

/-- The next position of a travelling record, exact (R105). -/
def nextPosition (d : Travel) (p : Int) (pitch : Nat) : Int :=
  match d with
  | .rising => p + pitch
  | .falling => p - pitch

/-- Step 7: the record lands in the remaining interval of its own meeting (R108). -/
def overtakes (d : Travel) (parts : List Stretch) (p q : Int) : Bool :=
  (remaining d p parts).any (inStretch q)

/-- The record re-placed at `q`, overtaken when `q` lies in the remaining interval (R107, R108). -/
def rearmed (d : Travel) (parts : List Stretch) (q : Int) (r : TripRecord) : TripRecord :=
  if overtakes d parts r.position q then
    { r with position := q, state := .held, pending := { r.pending with overtaken := true } }
  else { r with position := q }

/-- Steps 5 to 7 of a firing of the record of slot `i`, which steps 2 and 3 made `r` (R103 to R108). -/
def afterArming (sp : Span) (d : Travel) (parts : List Stretch) (i : SlotNo) (r : TripRecord) (st : Store) : Store :=
  let r := { r with repeats := r.repeats.map (· - 1) }
  if r.repeats = some 0 then becomeSpent i r st
  else
    match r.pitch with
    | none => setLive i r st
    | some k =>
      let q := reduce sp (nextPosition d r.position k)
      if inRange sp q then rePlace i (rearmed d parts q r) st else becomeSpent i r st

/-- Steps 2 to 7 of a firing, all at the store (R97). -/
def fireAtStore (sp : Span) (d : Travel) (parts : List Stretch) (i : SlotNo) (r : TripRecord) (st : Store) : Store :=
  afterArming sp d parts i (counted d r) (armSuccessor r.successor (setLive i (counted d r) st))

/-- One firing: the line claim, before which a line request may come, then the steps at the store (R97, R98, R132). -/
def fire (sp : Span) (d : Travel) (parts : List Stretch) (i : SlotNo) (r : TripRecord) (s : State) : State :=
  let s := claimArrives r.line (claimOf r) (beforeClaim r.line s)
  setStore (fireAtStore sp d parts i r s.store) s

/-- The walk meets one record: it fires or is passed (R94). -/
def meet (sp : Span) (d : Travel) (parts : List Stretch) (s : State) (i : SlotNo) : State :=
  match liveAt s.store i with
  | some r => if fires s.gates d r then fire sp d parts i r s else s
  | none => s

/-- The walk of an update of axis `n` from `p` to `p'` (R44, R45, R90). -/
def walk (n : AxisNo) (sp : Span) (p p' : Int) (s : State) : State :=
  match travelOf sp p p' with
  | none => s
  | some d =>
    let parts := crossed sp d p p'
    (metSet s.store n d parts).foldl (meet sp d parts) s

/-- A position update: the walk, the new axis position, and the attention line at the end of the claim
(R36, R90, R111, R142). -/
def positionUpdate (n : AxisNo) (p' : Int) (s : State) : State :=
  let t := walk n s.axes[n].config.span s.axes[n].position p' s
  setStore (settle t.store) (setAxis n { t.axes[n] with position := p' } t)

end Sys2Proof.Machine
end

