-- ==== Sys2Proof/Machine/Tracker.lean ====
section
/-! DEFINITION. The axis tracker: axis notices (R87), transitions into FAULTED and SUSPECT (R78, R79, R81, R82),
referencing (R77), and what a source event does in each state (R78 to R83). -/

namespace Sys2Proof.Machine

/-! ### Axis notices -/

/-- REFERENCED joins an axis entry (R139). -/
def withReferenced (e : AxisEntry) : AxisEntry :=
  { e with referenced := true }

/-- SUSPECT joins an axis entry with its cause, and keeps the first cause when it is pending already (R139). -/
def withSuspect (c : Cause) (e : AxisEntry) : AxisEntry :=
  { e with suspect := some (e.suspect.getD c) }

/-- FAULTED joins an axis entry with its cause, and keeps the first cause when it is pending already (R139). -/
def withFaulted (c : Cause) (e : AxisEntry) : AxisEntry :=
  { e with faulted := some (e.faulted.getD c) }

/-- A notice claim of the tracker of axis `n` (R87, R142). -/
def raise (n : AxisNo) (change : AxisEntry → AxisEntry) (s : State) : State :=
  setStore
    (settle { s.store with axisNotices := put s.store.axisNotices n (change s.store.axisNotices[n]) }) s

/-! ### Transitions -/

/-- Entry into FAULTED with its cause: SEEKING is cleared, the position stays, FAULTED is raised (R78, R82). -/
def becomeFaulted (n : AxisNo) (c : Cause) (s : State) : State :=
  raise n (withFaulted c)
    (setAxis n { s.axes[n] with state := .faulted, seeking := false, lastCause := c } s)

/-- Entry into SUSPECT with its cause, at position `p` (R79, R81). -/
def becomeSuspect (n : AxisNo) (c : Cause) (p : Int) (s : State) : State :=
  raise n (withSuspect c)
    (setAxis n { s.axes[n] with state := .suspect, lastCause := c, position := p } s)

/-- Referencing at `p`, reduced on a rotary axis: SEEKING is cleared, the state is TRACKING and REFERENCED is
raised; nothing is walked (R77). -/
def reference (n : AxisNo) (p : Int) (s : State) : State :=
  raise n withReferenced
    (setAxis n
      { s.axes[n] with
        state := .tracking
        seeking := false
        position := reduce s.axes[n].config.span p } s)

/-! ### Source events -/

/-- The exact new position `p` is a range fault: it is outside the signed 32-bit range on a linear axis (R78). -/
def isRangeFault (sp : Span) (p : Int) : Bool :=
  match sp with
  | .linear => !inRange .linear p
  | .rotary _ => false

/-- The slew guard lets the travel pass (R79). -/
def guardAdmits (c : AxisConfig) (p p' : Int) : Bool :=
  c.slewGuard == 0 || decide (travelDistance c.span p p' ≤ c.slewGuard)

/-- The axis acts on source events: its state is UNREFERENCED, TRACKING or SUSPECT (R74). -/
def acts : AxisState → Bool
  | .unreferenced | .tracking | .suspect => true
  | .parked | .faulted => false

/-- A new position, not yet reduced, reaches the tracker in a state that acts on it (R78 to R80). -/
def candidate (n : AxisNo) (exact : Int) (s : State) : State :=
  let a := s.axes[n]
  let p' := reduce a.config.span exact
  if !acts a.state then s
  else if isRangeFault a.config.span exact then becomeFaulted n .range s
  else if a.state = .tracking then
    if guardAdmits a.config a.position p' then positionUpdate n p' s
    else becomeSuspect n .slew p' s
  else setAxis n { a with position := p' } s

/-- A count step of +1 or -1, after count invert (R52, R78). -/
def countStep (n : AxisNo) (forward : Bool) (s : State) : State :=
  let a := s.axes[n]
  candidate n (if forward = a.config.countInvert then a.position - 1 else a.position + 1) s

/-- A decode error (R81). -/
def decodeError (n : AxisNo) (s : State) : State :=
  if s.axes[n].state = .tracking then becomeSuspect n .decode s.axes[n].position s else s

/-- An index event: it references an INDEX axis that is SEEKING, and is ignored otherwise (R54, R77, R81). -/
def indexSeen (n : AxisNo) (s : State) : State :=
  let a := s.axes[n]
  if a.state = .unreferenced ∧ a.seeking = true ∧ a.config.method = .index then
    reference n (a.config.refValue + a.config.offset) s
  else s

/-- A GOOD sample: WARN is copied unless the sample is a range fault (R85), then the sample references a SEEKING
ABSOLUTE axis (R77) or gives a new position (R78). -/
def goodSample (n : AxisNo) (raw : Nat) (warn : Bool) (s : State) : State :=
  let a := s.axes[n]
  let exact : Int := raw + a.config.offset
  if !acts a.state then s
  else if isRangeFault a.config.span exact then becomeFaulted n .range s
  else
    let s := setAxis n { a with warn := warn } s
    if a.state = .unreferenced ∧ a.seeking = true ∧ a.config.method = .absolute then reference n exact s
    else candidate n exact s

/-- An ALARM or LINK_LOST event: FAULTED with its cause, and ignored by a FAULTED axis (R82, R83). -/
def linkFault (n : AxisNo) (c : Cause) (s : State) : State :=
  if acts s.axes[n].state then becomeFaulted n c s else s

end Sys2Proof.Machine
end

