-- ==== Sys2Proof/Machine/Sources.lean ====
section
/-! DEFINITION. The front ends: the quadrature decoder (R51 to R55), the position link receiver (R56 to R66), and the
gate inputs (R96). -/

namespace Sys2Proof.Machine

/-! ### The quadrature decoder -/

/-- What a change of the pair gives (R51). -/
inductive QuadResult where
  | unchanged
  | forward
  | backward
  | error
deriving DecidableEq, Repr

/-- The place of a pair (A, B) in the cycle 00, 10, 11, 01 (R51). -/
def cyclePlace : Level × Level → Nat
  | (.low, .low) => 0
  | (.high, .low) => 1
  | (.high, .high) => 2
  | (.low, .high) => 3

/-- The table of R51: a step along the cycle is forward, a step the other way backward, two steps an error. -/
def quadResult (last new : Level × Level) : QuadResult :=
  match (cyclePlace new + 4 - cyclePlace last) % 4 with
  | 0 => .unchanged
  | 1 => .forward
  | 3 => .backward
  | _ => .error

/-- QUAD_EDGE: the pins take their levels; a running decoder compares the pair with its last pair (R51, R53, R55). -/
def execQuadEdge (n : AxisNo) (a b : Level) (s : State) : Host.Outcome State Fault Refusal :=
  let old := s.axes[n]
  if s.resetLow ∨ old.decoderRunning = false then .next (setAxis n { old with xa := a, xb := b } s)
  else
    let s := setAxis n { old with xa := a, xb := b, lastPair := (a, b) } s
    match quadResult old.lastPair (a, b) with
    | .unchanged => .next s
    | .forward => .next (countStep n true s)
    | .backward => .next (countStep n false s)
    | .error => .next (decodeError n s)

/-- INDEX_EVENT: a rising edge of XZn, taken while the decoder runs (R54, R55). -/
def execIndexEvent (n : AxisNo) (s : State) : Host.Outcome State Fault Refusal :=
  if s.resetLow ∨ s.axes[n].decoderRunning = false then .next s else .next (indexSeen n s)

/-! ### The position link receiver -/

/-- SAMPLE_TIMER_EXPIRY: the next period starts at once, and a poll starts unless the axis is FAULTED. Time passes
until the expiry is due (log entry 3). No expiry happens while the timer is stopped, or with a poll in flight
(R57, R58). -/
def execSampleTimerExpiry (n : AxisNo) (s : State) : Host.Outcome State Fault Refusal :=
  let a := s.axes[n]
  match a.sampleNext, a.poll with
  | some t, none =>
    if s.resetLow ∨ a.config.source ≠ .link then .next s
    else
      .next (setAxis n
        { a with
          sampleNext := some (t + Config.ticksPerMicrosecond * a.config.samplePeriod)
          poll := if acts a.state then some [] else none }
        (advanceTo t s))
  | _, _ => .next s

/-- The outcome of a poll (R61). -/
inductive PollOutcome where
  | good (raw : Nat) (warn : Bool)
  | alarm
  | bad
deriving DecidableEq, Repr

/-- The judgement of a full-length reply, from its position word of `w` bits on (R60, R61). -/
def judgeBody (w : Nat) (body : List Bool) : PollOutcome :=
  if (body.drop (w + 2)).take 8 = byteBits (crc8 (body.take (w + 2))) then
    if body.getD w false then .alarm else .good (bitsToNat (body.take w)) (body.getD (w + 1) false)
  else .bad

/-- The outcome of a poll whose reply bits so far are `bits`; none while it has not ended. It ends with the
timeout, with a sync second bit of 1, or at the last check bit (R59). -/
def judgeReply (w : Nat) (bits : List Bool) : Option PollOutcome :=
  let zeros := (bits.takeWhile (· = false)).length
  if Config.syncSearchBits ≤ zeros then some .bad
  else
    match bits.drop (zeros + 1) with
    | [] => none
    | true :: _ => some .bad
    | false :: body => if body.length < w + 10 then none else some (judgeBody w body)

/-- A BAD outcome: the failure count goes up by one; at the failure limit LINK_LOST follows and the count becomes 0
(R63). -/
def badOutcome (n : AxisNo) (s : State) : State :=
  let a := s.axes[n]
  if a.failures + 1 = a.config.failureLimit then
    linkFault n .link (setAxis n { a with poll := none, failures := 0 } s)
  else setAxis n { a with poll := none, failures := a.failures + 1 } s

/-- The end of a poll with its outcome: the poll in flight becomes absent, and the receiver acts on the outcome in the
same claim (R59, R61 to R64). -/
def endPoll (n : AxisNo) (o : PollOutcome) (s : State) : State :=
  match o with
  | .good raw warn => goodSample n raw warn (setAxis n { s.axes[n] with poll := none, failures := 0 } s)
  | .alarm => linkFault n .encoder (setAxis n { s.axes[n] with poll := none } s)
  | .bad => badOutcome n s

/-- POLL_TIMEOUT: no 1 bit in the 120 clock periods after the poll word (R59). It does not arise without a poll in
flight, or after a sync bit. -/
def execPollTimeout (n : AxisNo) (s : State) : Host.Outcome State Fault Refusal :=
  match s.axes[n].poll with
  | none => .next s
  | some bits => if s.resetLow ∨ bits.any (· = true) then .next s else .next (endPoll n .bad s)

/-- POLL_END: the reply bits are sampled; the poll in flight ends if they end it, and stays in flight with its
progress otherwise (R59, R61, log entry 8). -/
def execPollEnd (n : AxisNo) (reply : List Bool) (s : State) : Host.Outcome State Fault Refusal :=
  match s.axes[n].poll with
  | none => .next s
  | some bits =>
    if s.resetLow then .next s
    else
      match judgeReply s.axes[n].config.wordWidth (bits ++ reply) with
      | some o => .next (endPoll n o s)
      | none => .next (setAxis n { s.axes[n] with poll := some (bits ++ reply) } s)

/-! ### Gate inputs -/

/-- GATE_CHANGE: the input takes its level, which walks taken after it read; nothing else happens (R96). -/
def execGateChange (g : GateNo) (level : Level) (s : State) : Host.Outcome State Fault Refusal :=
  .next { s with gates := put s.gates g level }

end Sys2Proof.Machine
end

