-- ==== Sys2Proof/Machine/Axes.lean ====
section
/-! DEFINITION. The axis requests: CONFIG-AXIS, UNPARK-AXIS, ESTABLISH-AXIS, RESUME-AXIS, PARK-AXIS, AXIS-STATUS and
POST-POSITION (R67, R68, R73 to R76, R84, R86, R89). -/

namespace Sys2Proof.Machine

/-- The items of a response that gives the axis state and position. -/
def axisItems (a : Axis) : List Byte :=
  be8 (axisStateCode a.state) ++ be32 a.position

/-- A request with its checks passed, answered with the axis state and position it leaves. -/
def axisReply (c : Completion) (n : AxisNo) (t : State) : State × Reply :=
  (t, ⟨c, [axisItems t.axes[n]]⟩)

/-- The axis that an axis request names, after the batch flag and the axis number are checked (R154). -/
def namedAxis (f : Frame) : Verdict AxisNo := do
  noBatchFlag f
  axisOperand f

/-! ### CONFIG-AXIS -/

/-- Check 4 of R73: INDEX needs QUAD and ABSOLUTE needs LINK. -/
def methodFitsSource (c : AxisConfig) : Bool :=
  match c.method, c.source with
  | .index, .link | .index, .host | .absolute, .quad | .absolute, .host => false
  | _, _ => true

/-- Check 5 of R73: on a LINEAR axis with method NONE or INDEX, R + O is a signed 32-bit count. -/
def sumFits (c : AxisConfig) : Bool :=
  match c.span, c.method with
  | .linear, .none | .linear, .index => inRange .linear (c.refValue + c.offset)
  | _, _ => true

/-- The place of the field that check 4 of R73 names: source or reference method (log entry 9). -/
def methodCheckPlace : Refused :=
  if Config.methodCheckNamesSource then badField 4 7 else badField 10 7

/-- The place of the field that check 5 of R73 names: reference value or offset (log entry 9). -/
def sumCheckPlace : Refused :=
  if Config.sumCheckNamesOffset then badField 15 7 else badField 11 7

/-- CONFIG-AXIS (R73). -/
def configAxis (f : Frame) (s : State) : Verdict (State × Reply) := do
  let n ← namedAxis f
  let a := s.axes[n]
  require (decide (a.state = .parked)) (refuse .wrongState)
  let c ← readConfig f
  require (methodFitsSource c) methodCheckPlace
  require (sumFits c) sumCheckPlace
  require (decide (c.span = a.config.span ∨ s.store.lists[n] = [] ∧ reservedCount s.store n = 0))
    (refuse .wrongState)
  require (c.quota == 0 || decide (s.store.occupancy[n] ≤ c.quota)) (refuse .quota)
  return (setAxis n { a with config := c } s, doneWith [])

/-- CONFIG_AXIS. -/
def execConfigAxis (s : State) : Host.Outcome State Fault Refusal :=
  serve (requestOf 15 s) configAxis s

/-! ### UNPARK-AXIS -/

/-- The front end of the axis's source starts (R50). -/
def startFrontEnd (now : Nat) (a : Axis) : Axis :=
  match a.config.source with
  | .quad => { a with decoderRunning := true, lastPair := (a.xa, a.xb) }
  | .link =>
    { a with failures := 0, sampleNext := some (now + Config.ticksPerMicrosecond * a.config.samplePeriod) }
  | .host => a

/-- A PARKED axis leaves PARKED by its reference method (R75). -/
def unpark (n : AxisNo) (s : State) : State :=
  let a := { startFrontEnd s.now s.axes[n] with warn := false }
  match a.config.method with
  | .none => reference n (a.config.refValue + a.config.offset) (setAxis n a s)
  | .index | .absolute | .host =>
    setAxis n { a with position := 0, state := .unreferenced, seeking := false } s

/-- UNPARK-AXIS (R75). -/
def unparkAxis (f : Frame) (s : State) : Verdict (State × Reply) := do
  let n ← namedAxis f
  require (decide (s.axes[n].state = .parked)) (refuse .wrongState)
  return axisReply .done n (unpark n s)

/-- UNPARK_AXIS. -/
def execUnparkAxis (s : State) : Host.Outcome State Fault Refusal :=
  serve (requestOf 16 s) unparkAxis s

/-! ### ESTABLISH-AXIS -/

/-- ESTABLISH-AXIS (R76). A NONE axis is never UNREFERENCED; its row here is never met (log entry 18). -/
def establishAxis (f : Frame) (s : State) : Verdict (State × Reply) := do
  let n ← namedAxis f
  let a := s.axes[n]
  require (decide (a.state = .unreferenced)) (refuse .wrongState)
  let v := i32 f 4
  match a.config.method with
  | .host =>
    require (!isRangeFault a.config.span (v + a.config.offset)) (badField 4 7)
    return axisReply .done n (reference n (v + a.config.offset) s)
  | .index | .absolute => return axisReply .accepted n (setAxis n { a with seeking := true } s)
  | .none => .error (refuse .wrongState)

/-- ESTABLISH_AXIS. -/
def execEstablishAxis (s : State) : Host.Outcome State Fault Refusal :=
  serve (requestOf 17 s) establishAxis s

/-! ### RESUME-AXIS and PARK-AXIS -/

/-- RESUME-AXIS (R84). -/
def resumeAxis (f : Frame) (s : State) : Verdict (State × Reply) := do
  let n ← namedAxis f
  require (decide (s.axes[n].state = .suspect)) (refuse .wrongState)
  return axisReply .done n (setAxis n { s.axes[n] with state := .tracking } s)

/-- RESUME_AXIS. -/
def execResumeAxis (s : State) : Host.Outcome State Fault Refusal :=
  serve (requestOf 18 s) resumeAxis s

/-- An axis in PARKED: SEEKING clear, the front end stopped, a poll in flight abandoned (R55, R57, R65, R86). -/
def parked (a : Axis) : Axis :=
  { a with state := .parked, seeking := false, decoderRunning := false, sampleNext := none, poll := none }

/-- PARK-AXIS (R86). -/
def parkAxis (f : Frame) (s : State) : Verdict (State × Reply) := do
  let n ← namedAxis f
  return axisReply .done n (if s.axes[n].state = .parked then s else setAxis n (parked s.axes[n]) s)

/-- PARK_AXIS. -/
def execParkAxis (s : State) : Host.Outcome State Fault Refusal :=
  serve (requestOf 19 s) parkAxis s

/-! ### AXIS-STATUS -/

/-- The failure count that AXIS-STATUS reports: 0 but on a LINK axis (R89). -/
def reportedFailures (a : Axis) : Nat :=
  if a.config.source = .link then a.failures else 0

/-- The items of AXIS-STATUS (R89). -/
def statusItems (st : Store) (n : AxisNo) (a : Axis) : List Byte :=
  halves (axisStateCode a.state) (causeCode a.lastCause)
    ++ be32 a.position
    ++ flagByte a.seeking
    ++ flagByte a.warn
    ++ be8 (reportedFailures a)
    ++ be16 (liveCount st n)
    ++ be16 (reservedCount st n)

/-- AXIS-STATUS (R89). -/
def axisStatus (f : Frame) (s : State) : Verdict (State × Reply) := do
  let n ← namedAxis f
  return (s, doneWith (statusItems s.store n s.axes[n]))

/-- AXIS_STATUS. -/
def execAxisStatus (s : State) : Host.Outcome State Fault Refusal :=
  serve (requestOf 20 s) axisStatus s

/-! ### POST-POSITION -/

/-- POST-POSITION: the checks of R67, then the posted sample at the tracker (R68). -/
def postPosition (f : Frame) (s : State) : Verdict (State × Reply) := do
  let n ← namedAxis f
  let a := s.axes[n]
  require (decide (a.config.source = .host)) (refuse .wrongSource)
  require (decide (a.state ≠ .parked)) (refuse .wrongState)
  let v ← fieldOr 4 7 (positionIn a.config.span (i32 f 4))
  return axisReply .done n (candidate n v s)

/-- POST_POSITION. -/
def execPostPosition (s : State) : Host.Outcome State Fault Refusal :=
  serve (requestOf 21 s) postPosition s

end Sys2Proof.Machine
end

