-- ==== Sys2Proof/Machine/Trips.lean ====
section
/-! DEFINITION. The direct record requests: ADD-TRIP, MODIFY-TRIP, RETIRE-TRIP, HOLD-TRIP, ARM-TRIP, QUERY-TRIP, SCAN-AXIS,
GET-BRACKET and WIPE-STORE (R25, R39, R157 to R174). -/

namespace Sys2Proof.Machine

/-- The configuration of each axis, as the store reads it. -/
def configs (s : State) : AxisNo → AxisConfig :=
  fun n => s.axes[n].config

/-- A claim at the store that ends with store `st`: the attention line follows the notice set (R142). -/
def storeReply (s : State) (st : Store) (items : List Byte) : State × Reply :=
  (setStore (settle st) s, doneWith items)

/-! ### ADD-TRIP -/

/-- A new record: the host's fields, and the store's fields as they start (R14). -/
def newRecord (fields : TripFields) : TripRecord :=
  { fields with }

/-- The axis's quota has no place for one more record (R8). -/
def quotaReached (quota occupancy : Nat) : Bool :=
  quota != 0 && decide (quota ≤ occupancy)

/-- The slot for a new record: FULL when none is FREE, then QUOTA (R7, R8, R158). -/
def slotFor (cfg : AxisNo → AxisConfig) (n : AxisNo) (st : Store) : Verdict SlotNo :=
  match lowestFree st with
  | none => .error (refuse .full)
  | some i => if quotaReached (cfg n).quota st.occupancy[n] then .error (refuse .quota) else .ok i

/-- The record of slot `i` becomes LIVE: it is placed as the newest of its equals and its successor is counted
(R14, R30, R158). -/
def enliven (i : SlotNo) (r : TripRecord) (st : Store) : Store :=
  link r.successor (place r.axis i r.position (setLive i r st))

/-- ADD-TRIP, direct (R157, R158). -/
def addTrip (f : Frame) (s : State) : Verdict (State × Reply) := do
  let fields ← readTripFields (configs s) f
  successorLive s.store fields.successor
  let i ← slotFor (configs s) fields.axis s.store
  let st := enliven i (newRecord fields) (raiseOccupancy fields.axis s.store)
  return storeReply s st (handleBytes (handleOf s.store i))

/-- ADD_TRIP. -/
def execAddTrip (s : State) : Host.Outcome State Fault Refusal :=
  serve (recordRequestOf 1 false s) addTrip s

/-! ### MODIFY-TRIP -/

/-- The successor that a change SETs, if it does. -/
def setSuccessor : Change Handle → Option Handle
  | .set h => some h
  | .keep | .remove => none

/-- The successor link of a record moves from `old` to `new`: the new one is counted and the old one no longer,
unless they are the same (R18, R162). -/
def moveLink (old new : Option Handle) (st : Store) : Store :=
  if old = new then st else unlink old (link new st)

/-- The fields replaced, and the record re-placed when a position is SET (R161). -/
def changeRecord (i : SlotNo) (r : TripRecord) (ch : Changes) (st : Store) : Store :=
  if ch.position.isSome then rePlace i (changed r ch) st else setLive i (changed r ch) st

/-- A MODIFY-TRIP at the store, before the release check of the former successor (R161, R162). -/
def modifyRecord (h : Handle) (r : TripRecord) (ch : Changes) (st : Store) : Store :=
  moveLink r.successor (changed r ch).successor (changeRecord h.slot r ch st)

/-- The former successor of a MODIFY-TRIP, when the link leaves it. -/
def formerSuccessor (r : TripRecord) (ch : Changes) : Option Handle :=
  if r.successor = (changed r ch).successor then none else r.successor

/-- Check 5 of R160: a successor that is SET must be another record and LIVE (R5). -/
def checkSuccessor (h : Handle) (ch : Changes) (st : Store) : Verdict Unit := do
  require (decide (setSuccessor ch.successor ≠ some h)) (refuse .badLink)
  successorLive st (setSuccessor ch.successor)

/-- The items of a MODIFY-TRIP: position and state, and whether the former successor `o` was released (R162). -/
def modifyItems (r : TripRecord) (o : Option Handle) (st : Store) : List Byte :=
  be32 r.position
    ++ be8 (stateCode r.state)
    ++ flagByte (match o with
      | some h => (liveAs st h).isNone
      | none => false)

/-- MODIFY-TRIP, direct (R160 to R162). -/
def modifyTrip (f : Frame) (s : State) : Verdict (State × Reply) := do
  let (h, r) ← target f s.store
  checkEntries f
  require (decide (r.state ≠ .spent)) (refuse .wrongState)
  let ch ← readChanges (some (configs s r.axis, r)) f
  checkSuccessor h ch s.store
  let st := releaseCheckOf (formerSuccessor r ch) (modifyRecord h r ch s.store)
  return storeReply s st (modifyItems (changed r ch) (formerSuccessor r ch) st)

/-- MODIFY_TRIP. -/
def execModifyTrip (s : State) : Host.Outcome State Fault Refusal :=
  serve (recordRequestOf 2 false s) modifyTrip s

/-! ### RETIRE-TRIP -/

/-- The kinds of a set, in bits 0 to 5 (R213). -/
def kindsByte (k : RecordKinds) (e : AxisEntry) : List Byte :=
  bitsByte [k.fired, k.spent, k.overtaken, e.referenced, e.suspect.isSome, e.faulted.isSome]

/-- A retirement at the store, before the release check of the successor: the record leaves its list, its slot is
freed and its successor no longer counts it (R165). -/
def retireRecord (h : Handle) (r : TripRecord) (st : Store) : Store :=
  unlink r.successor (freeSlot h.slot (if r.state = .spent then st else unlist r.axis h.slot st))

/-- RETIRE-TRIP, direct (R164, R165). -/
def retireTrip (f : Frame) (s : State) : Verdict (State × Reply) := do
  let (h, r) ← target f s.store
  require (decide (r.predCount = 0)) ⟨.inUse, be16 r.predCount⟩
  return storeReply s (releaseCheckOf r.successor (retireRecord h r s.store))
    (be8 (stateCode r.state) ++ kindsByte r.pending {})

/-- RETIRE_TRIP. -/
def execRetireTrip (s : State) : Host.Outcome State Fault Refusal :=
  serve (recordRequestOf 3 false s) retireTrip s

/-! ### HOLD-TRIP and ARM-TRIP -/

/-- HOLD-TRIP or ARM-TRIP: a record that is not SPENT takes the state `next` at its place (R166, R167). -/
def setState (next : RecordState) (h : Handle) (r : TripRecord) (st : Store) : Verdict Store := do
  require (decide (r.state ≠ .spent)) (refuse .wrongState)
  return setLive h.slot { r with state := next } st

/-- HOLD-TRIP, direct (R166). -/
def holdTrip (f : Frame) (s : State) : Verdict (State × Reply) := do
  let (h, r) ← target f s.store
  let st ← setState .held h r s.store
  return storeReply s st (be8 (stateCode r.state))

/-- HOLD_TRIP. -/
def execHoldTrip (s : State) : Host.Outcome State Fault Refusal :=
  serve (recordRequestOf 4 false s) holdTrip s

/-- ARM-TRIP, direct (R167). -/
def armTrip (f : Frame) (s : State) : Verdict (State × Reply) := do
  let (h, r) ← target f s.store
  let st ← setState .armed h r s.store
  return storeReply s st (be8 (stateCode r.state))

/-- ARM_TRIP. -/
def execArmTrip (s : State) : Host.Outcome State Fault Refusal :=
  serve (recordRequestOf 5 false s) armTrip s

/-! ### QUERY-TRIP -/

/-- A gate's byte: input in bits 7 to 4, level in bits 3 to 0 (R213). -/
def gateByte (g : Gate) : List Byte :=
  halves g.input.val (levelCode g.level)

/-- What both parts of a QUERY-TRIP carry after the presence byte (R170, R213). -/
def queryHead (h : Handle) (r : TripRecord) : List Byte :=
  handleBytes h ++ be16 r.tag ++ be32 r.position ++ be8 (stateCode r.state)

/-- Part 1 of a QUERY-TRIP: the setup (R170). -/
def querySetup (h : Handle) (r : TripRecord) : List Byte :=
  bitsByte [r.width.isSome, r.pitch.isSome, r.gate.isSome]
    ++ queryHead h r
    ++ be8 r.axis.val
    ++ halves (qualifierCode r.qualifier) (actionCode r.action)
    ++ be8 r.line.val
    ++ optionalBytes 2 be16 r.width
    ++ optionalBytes 4 (fun k => be32 k) r.pitch
    ++ optionalBytes 1 gateByte r.gate
    ++ halves (notifyCode r.notify) (endModeCode r.endMode)

/-- Part 2 of a QUERY-TRIP: the progress (R170). -/
def queryProgress (h : Handle) (r : TripRecord) : List Byte :=
  bitsByte [r.repeats.isSome, r.successor.isSome, r.lastDirection.isSome]
    ++ queryHead h r
    ++ optionalBytes 2 be16 r.repeats
    ++ optionalBytes 2 handleBytes r.successor
    ++ be16 r.fireCount
    ++ optionalBytes 1 (fun d => be8 (travelCode d)) r.lastDirection
    ++ be16 r.predCount
    ++ kindsByte r.pending {}

/-- QUERY-TRIP (R169, R170). -/
def queryTrip (f : Frame) (s : State) : Verdict (State × Reply) := do
  noBatchFlag f
  let (h, r) ← target f s.store
  return (s, ⟨.done, [querySetup h r, queryProgress h r]⟩)

/-- QUERY_TRIP. -/
def execQueryTrip (s : State) : Host.Outcome State Fault Refusal :=
  serve (requestOf 6 s) queryTrip s

/-! ### SCAN-AXIS -/

/-- Direction of a scan: UP 0, DOWN 1 (R171). -/
inductive ScanDirection where
  | up
  | down
deriving DecidableEq, Repr

/-- UP 0, DOWN 1. -/
def scanDirectionOf : Nat → Option ScanDirection
  | 0 => some .up
  | 1 => some .down
  | _ => none

/-- The records from the starting record on, in scan order (R172). -/
def scanOrder (st : Store) (n : AxisNo) (start : Int) : ScanDirection → List SlotNo
  | .up => st.lists[n].filter fun i => start ≤ positionOf st i
  | .down => st.lists[n].reverse.filter fun i => positionOf st i ≤ start

/-- A record reported by a scan: handle, position, state and tag (R173). A listed slot that is not LIVE, which no run reaches, shows zeros
(log entry 18). -/
def scanItem (st : Store) (i : SlotNo) : List Byte :=
  match liveAt st i with
  | some r => handleBytes (handleOf st i) ++ be32 r.position ++ be8 (stateCode r.state) ++ be16 r.tag
  | none => List.replicate 9 0

/-- Part `k` (from 0) of `parts` of a scan: the records `2k` and `2k + 1` reported, and in the last part the more
flag (R173, R213). -/
def scanPart (st : Store) (reported : List SlotNo) (more : Bool) (parts k : Nat) : List Byte :=
  let a := reported[2 * k]?
  let b := reported[2 * k + 1]?
  bitsByte [a.isSome, b.isSome]
    ++ optionalBytes 9 (scanItem st) a
    ++ optionalBytes 9 (scanItem st) b
    ++ (if k + 1 = parts then flagByte more else [])

/-- SCAN-AXIS (R171 to R173). -/
def scanAxis (f : Frame) (s : State) : Verdict (State × Reply) := do
  let n ← (do noBatchFlag f; axisOperand f : Verdict AxisNo)
  let dir ← fieldOr 8 7 (scanDirectionOf (u8 f 8))
  let count ← fieldOr 9 7 (within 1 6 (u8 f 9))
  let skip ← fieldOr 10 7 (within 0 383 (u16 f 10))
  let start ← fieldOr 4 7 (positionIn (configs s n).span (i32 f 4))
  let rest := (scanOrder s.store n start dir).drop skip
  let parts := (count + 1) / 2
  let more := decide (count < rest.length)
  return (s, ⟨.done, (List.range parts).map (scanPart s.store (rest.take count) more parts)⟩)

/-- SCAN_AXIS. -/
def execScanAxis (s : State) : Host.Outcome State Fault Refusal :=
  serve (requestOf 7 s) scanAxis s

/-! ### GET-BRACKET -/

/-- The last listed record at or below `p`; on a rotary axis without one, the last of the list (R37, R38). -/
def lowerNeighbour (st : Store) (n : AxisNo) (sp : Span) (p : Int) : Option SlotNo :=
  match (st.lists[n].filter fun i => positionOf st i ≤ p).getLast?, sp with
  | some i, _ => some i
  | none, .linear => none
  | none, .rotary _ => st.lists[n].getLast?

/-- The first listed record above `p`; on a rotary axis without one, the first of the list (R37, R38). -/
def upperNeighbour (st : Store) (n : AxisNo) (sp : Span) (p : Int) : Option SlotNo :=
  match (st.lists[n].filter fun i => p < positionOf st i).head?, sp with
  | some i, _ => some i
  | none, .linear => none
  | none, .rotary _ => st.lists[n].head?

/-- A neighbour's handle and position (R174). -/
def neighbourItem (st : Store) (i : SlotNo) : List Byte :=
  handleBytes (handleOf st i) ++ be32 (positionOf st i)

/-- The items of GET-BRACKET (R39, R174). -/
def bracketItems (st : Store) (n : AxisNo) (sp : Span) (p : Int) : List Byte :=
  let lower := lowerNeighbour st n sp p
  let upper := upperNeighbour st n sp p
  bitsByte [lower.isSome, upper.isSome]
    ++ be32 p
    ++ optionalBytes 6 (neighbourItem st) lower
    ++ optionalBytes 6 (neighbourItem st) upper

/-- GET-BRACKET (R39). -/
def getBracket (f : Frame) (s : State) : Verdict (State × Reply) := do
  let n ← (do noBatchFlag f; axisOperand f : Verdict AxisNo)
  return (s, doneWith (bracketItems s.store n (configs s n).span s.axes[n].position))

/-- GET_BRACKET. -/
def execGetBracket (s : State) : Host.Outcome State Fault Refusal :=
  serve (requestOf 8 s) getBracket s

/-! ### WIPE-STORE -/

/-- A slot after a wipe (R25). -/
def wipedSlot (sl : Slot) : Slot :=
  match sl.content with
  | .free => sl
  | .reserved _ | .live _ => ⟨sl.gen + 1, .free⟩

/-- The LIVE and RESERVED slots (R25). -/
def occupied (st : Store) : Nat :=
  st.slots.toList.countP fun sl => decide (sl.content ≠ .free)

/-- The store after a wipe; the axis entries of the notice set stay (R25, R149). -/
def wiped (st : Store) : Store :=
  { st with
    slots := mapAll wipedSlot st.slots
    lists := Vector.replicate 8 []
    occupancy := Vector.replicate 8 0 }

/-- WIPE-STORE, which also closes an open batch (R25, R193). -/
def wipeStore (f : Frame) (s : State) : Verdict (State × Reply) := do
  noBatchFlag f
  return storeReply { s with manager := { s.manager with batchOpen := false, staging := [] } } (wiped s.store)
    (be16 (occupied s.store))

/-- WIPE_STORE. -/
def execWipeStore (s : State) : Host.Outcome State Fault Refusal :=
  serve (requestOf 9 s) wipeStore s

end Sys2Proof.Machine
end

