-- ==== Sys2Proof/Machine/Notices.lean ====
section
/-! DEFINITION. READ-NOTICES and ACK-NOTICES (R143 to R147, R176). -/

namespace Sys2Proof.Machine

/-! ### READ-NOTICES -/

/-- The causes of an axis entry: SUSPECT's in bits 7 to 4, FAULTED's in bits 3 to 0 (R213). -/
def causesByte (e : AxisEntry) : List Byte :=
  halves (causeCode (e.suspect.getD .none)) (causeCode (e.faulted.getD .none))

/-- An axis entry as READ-NOTICES reports it (R144, R213). -/
def axisEntryItem (n : AxisNo) (e : AxisEntry) : List Byte :=
  kindsByte {} e ++ be8 n.val ++ causesByte e ++ [0, 0, 0, 0]

/-- A record entry as READ-NOTICES reports it: byte 0 holds its kinds and, in bits 7 to 6, its state (R144, R213). -/
def recordEntryItem (h : Handle) (r : TripRecord) : List Byte :=
  bitsByte [r.pending.fired, r.pending.spent, r.pending.overtaken, false, false, false,
      (stateCode r.state).testBit 0, (stateCode r.state).testBit 1]
    ++ handleBytes h ++ be16 r.tag ++ be16 r.fireCount

/-- The axis entries of the notice set with their reading keys (R138). -/
def axisEntries (st : Store) : List (Nat × List Byte) :=
  ((List.finRange 8).filter fun n => hasAxisEntry st.axisNotices[n]).map fun n =>
    (n.val, axisEntryItem n st.axisNotices[n])

/-- The record entries of the notice set with their reading keys, 8 plus the slot (R138, R140). -/
def recordEntries (st : Store) : List (Nat × List Byte) :=
  (List.finRange 384).filterMap fun i =>
    match liveAt st i with
    | some r => if noKinds r.pending then none else some (8 + i.val, recordEntryItem (handleOf st i) r)
    | none => none

/-- The notice set in reading order (R138). -/
def noticeEntries (st : Store) : List (Nat × List Byte) :=
  axisEntries st ++ recordEntries st

/-- The entries after an optional resume key (R143). -/
def entriesAfter (st : Store) (resume : Option Nat) : List (List Byte) :=
  ((noticeEntries st).filter fun e => resume.all fun k => decide (k < e.1)).map (·.2)

/-- READ-NOTICES (R143, R176). -/
def readNotices (f : Frame) (s : State) : Verdict (State × Reply) := do
  noBatchFlag f
  let resume ← optionalField (bitAt f 3 0) 4 7 (within 0 391 (u16 f 4))
  let selected := entriesAfter s.store resume
  let part1 := ((selected.take 3).flatten ++ List.replicate 21 0).take 21
  let part2 := (((selected.drop 3).take 2).flatten ++ List.replicate 14 0).take 14
  return (s, ⟨.done, [part1, part2 ++ flagByte (decide (5 < selected.length))]⟩)

/-- READ_NOTICES. -/
def execReadNotices (s : State) : Host.Outcome State Fault Refusal :=
  serve (requestOf 10 s) readNotices s

/-! ### ACK-NOTICES -/

/-- Bits 0 to 2 of a set of kinds: FIRED, SPENT, OVERTAKEN. -/
def recordKindsAt (f : Frame) (k : Nat) : RecordKinds :=
  ⟨bitAt f k 0, bitAt f k 1, bitAt f k 2⟩

/-- The set names a kind of an axis entry, bits 3 to 5. -/
def namesAxisKind (f : Frame) (k : Nat) : Bool :=
  bitAt f k 3 || bitAt f k 4 || bitAt f k 5

/-- Checks 3 and 4 of R145: the set is not empty, and names no kind of the other sort. -/
def checkKinds (forAxis : Bool) (f : Frame) : Verdict Unit :=
  require
    (if forAxis then namesAxisKind f 6 && noKinds (recordKindsAt f 6)
     else !namesAxisKind f 6 && !noKinds (recordKindsAt f 6))
    (badField 6 7)

/-- The kinds of `k` that are also in `m`. -/
def commonKinds (k m : RecordKinds) : RecordKinds :=
  ⟨k.fired && m.fired, k.spent && m.spent, k.overtaken && m.overtaken⟩

/-- The kinds of `k` that are not in `m`. -/
def kindsWithout (k m : RecordKinds) : RecordKinds :=
  ⟨k.fired && !m.fired, k.spent && !m.spent, k.overtaken && !m.overtaken⟩

/-- ACK-NOTICES of a record at the store: the named kinds are cleared, and when that empties the pending kinds the
record is checked for release (R146). -/
def ackRecordStore (h : Handle) (r : TripRecord) (named : RecordKinds) (st : Store) : Store :=
  let left := kindsWithout r.pending named
  let st := setLive h.slot { r with pending := left } st
  if noKinds left && !noKinds (commonKinds r.pending named) then releaseCheck h st else st

/-- ACK-NOTICES of a record (R145, R146). -/
def ackRecord (f : Frame) (s : State) : Verdict (State × Reply) := do
  let h ← fieldOr 4 7 (handleAt f 4)
  let r ← resolve s.store h
  checkKinds false f
  let named := recordKindsAt f 6
  let st := ackRecordStore h r named s.store
  return storeReply s st
    (kindsByte (commonKinds r.pending named) {} ++ kindsByte (kindsWithout r.pending named) {}
      ++ flagByte (liveAs st h).isNone)

/-- The kinds of an axis entry that the set at byte 6 names. -/
def axisKindsNamed (f : Frame) (e : AxisEntry) : AxisEntry :=
  { referenced := e.referenced && bitAt f 6 3
    suspect := if bitAt f 6 4 then e.suspect else none
    faulted := if bitAt f 6 5 then e.faulted else none }

/-- The kinds of an axis entry that the set at byte 6 does not name. -/
def axisKindsKept (f : Frame) (e : AxisEntry) : AxisEntry :=
  { referenced := e.referenced && !bitAt f 6 3
    suspect := if bitAt f 6 4 then none else e.suspect
    faulted := if bitAt f 6 5 then none else e.faulted }

/-- ACK-NOTICES of an axis (R145, R147). -/
def ackAxis (f : Frame) (s : State) : Verdict (State × Reply) := do
  let n ← fieldOr 4 7 (finOf 8 (u16 f 4))
  checkKinds true f
  let e := s.store.axisNotices[n]
  let cleared := axisKindsNamed f e
  let left := axisKindsKept f e
  return storeReply s { s.store with axisNotices := put s.store.axisNotices n left }
    (kindsByte {} cleared ++ causesByte cleared ++ kindsByte {} left)

/-- ACK-NOTICES: the sort of its subject is 0 for an axis and 1 for a record (R213). -/
def ackNotices (f : Frame) (s : State) : Verdict (State × Reply) := do
  noBatchFlag f
  match u8 f 3 with
  | 0 => ackAxis f s
  | 1 => ackRecord f s
  | _ => .error (badField 3 7)

/-- ACK_NOTICES. -/
def execAckNotices (s : State) : Host.Outcome State Fault Refusal :=
  serve (requestOf 11 s) ackNotices s

end Sys2Proof.Machine
end

