-- ==== Sys2Proof/Machine/Batch.lean ====
section
/-! DEFINITION. Batched changes: OPEN-BATCH, staging, COMMIT-BATCH and DISCARD-BATCH (R178 to R192). -/

namespace Sys2Proof.Machine

/-! ### OPEN-BATCH -/

/-- OPEN-BATCH (R178). -/
def openBatch (f : Frame) (s : State) : Verdict (State × Reply) := do
  noBatchFlag f
  require (!s.manager.batchOpen) (refuse .batchOpen)
  return ({ s with manager := { s.manager with batchOpen := true, staging := [] } }, doneWith [])

/-- OPEN_BATCH. -/
def execOpenBatch (s : State) : Host.Outcome State Fault Refusal :=
  serve (requestOf 12 s) openBatch s

/-! ### Staging -/

/-- Checks 1 and 2 of a staged request (R179). -/
def stagingOpen (s : State) : Verdict Unit := do
  require s.manager.batchOpen (refuse .noBatch)
  require (decide (s.manager.staging.length < Config.stagingPlaces)) (refuse .batchFull)

/-- The staged operation joins the tail of the staging list, and STAGED gives its index (R179). -/
def stage (f : Frame) (op : StagedOp) (items : List Byte) (s : State) : State × Reply :=
  ({ s with manager := { s.manager with staging := s.manager.staging ++ [⟨op, byteAt f 1⟩] } },
    ⟨.staged, [be8 s.manager.staging.length ++ items]⟩)

/-- The lowest FREE slot becomes RESERVED with its generation as it stands, holding the record (R182). -/
def reserve (i : SlotNo) (r : TripRecord) (st : Store) : Store :=
  raiseOccupancy r.axis (setContent i (.reserved r) st)

/-- ADD-TRIP, staged (R182). -/
def stagedAddTrip (f : Frame) (s : State) : Verdict (State × Reply) := do
  stagingOpen s
  let fields ← readTripFields (configs s) f
  let i ← slotFor (configs s) fields.axis s.store
  let h := handleOf s.store i
  return stage f (.add fields h) (handleBytes h) (setStore (reserve i (newRecord fields) s.store) s)

/-- STAGED_ADD_TRIP. -/
def execStagedAddTrip (s : State) : Host.Outcome State Fault Refusal :=
  serve (recordRequestOf 1 true s) stagedAddTrip s

/-- MODIFY-TRIP, staged: only what the request carries is checked (R181). R181 gives no order among its checks; that the target handle is
checked first, then the change entries in the order of R9, then the SET values in the order of R157, and that the first failing one is
named, is the model's choice (log entry 24). -/
def stagedModifyTrip (f : Frame) (s : State) : Verdict (State × Reply) := do
  stagingOpen s
  let h ← fieldOr 3 7 (handleAt f 3)
  checkEntries f
  let ch ← readChanges none f
  return stage f (.modify h ch) [] s

/-- STAGED_MODIFY_TRIP. -/
def execStagedModifyTrip (s : State) : Host.Outcome State Fault Refusal :=
  serve (recordRequestOf 2 true s) stagedModifyTrip s

/-- RETIRE-TRIP, staged (R181). -/
def stagedRetireTrip (f : Frame) (s : State) : Verdict (State × Reply) := do
  stagingOpen s
  let h ← fieldOr 3 7 (handleAt f 3)
  return stage f (.retire h) [] s

/-- STAGED_RETIRE_TRIP. -/
def execStagedRetireTrip (s : State) : Host.Outcome State Fault Refusal :=
  serve (recordRequestOf 3 true s) stagedRetireTrip s

/-- HOLD-TRIP, staged (R181). -/
def stagedHoldTrip (f : Frame) (s : State) : Verdict (State × Reply) := do
  stagingOpen s
  let h ← fieldOr 3 7 (handleAt f 3)
  return stage f (.hold h) [] s

/-- STAGED_HOLD_TRIP. -/
def execStagedHoldTrip (s : State) : Host.Outcome State Fault Refusal :=
  serve (recordRequestOf 4 true s) stagedHoldTrip s

/-- ARM-TRIP, staged (R181). -/
def stagedArmTrip (f : Frame) (s : State) : Verdict (State × Reply) := do
  stagingOpen s
  let h ← fieldOr 3 7 (handleAt f 3)
  return stage f (.arm h) [] s

/-- STAGED_ARM_TRIP. -/
def execStagedArmTrip (s : State) : Host.Outcome State Fault Refusal :=
  serve (recordRequestOf 5 true s) stagedArmTrip s

/-! ### COMMIT-BATCH -/

/-- An ADD entry, judged and applied: its successor must be LIVE at this entry, which its own slot is not yet; then
its reserved slot becomes LIVE (R187, R189). -/
def commitAdd (h : Handle) (st : Store) : Verdict Store :=
  match st.slots[h.slot].content with
  | .reserved r => do
    successorLive st r.successor
    return enliven h.slot r st
  | .free | .live _ => .error (refuse .stale)

/-- A MODIFY entry, judged and applied, with the former successor to be checked for release (R187, R189). -/
def commitModify (cfg : AxisNo → AxisConfig) (h : Handle) (ch : Changes) (st : Store) :
    Verdict (Store × Option Handle) := do
  let r ← resolve st h
  require (decide (r.state ≠ .spent)) (refuse .wrongState)
  judgeChanges (cfg r.axis) r ch
  checkSuccessor h ch st
  return (modifyRecord h r ch st, formerSuccessor r ch)

/-- A RETIRE entry, judged and applied, with the successor to be checked for release (R187, R189). -/
def commitRetire (h : Handle) (st : Store) : Verdict (Store × Option Handle) := do
  let r ← resolve st h
  require (decide (r.predCount = 0)) (refuse .inUse)
  return (retireRecord h r st, r.successor)

/-- A HOLD or ARM entry, judged and applied (R187, R189). -/
def commitState (next : RecordState) (h : Handle) (st : Store) : Verdict Store := do
  let r ← resolve st h
  setState next h r st

/-- One entry, judged against the store as the earlier entries leave it, and applied to it (R186, R187, R189). The
handle, if any, is the record whose predecessor count it lowered. -/
def commitEntry (cfg : AxisNo → AxisConfig) (op : StagedOp) (st : Store) : Verdict (Store × Option Handle) :=
  match op with
  | .add _ h => do
    let st ← commitAdd h st
    return (st, none)
  | .modify h ch => commitModify cfg h ch st
  | .retire h => commitRetire h st
  | .hold h => do
    let st ← commitState .held h st
    return (st, none)
  | .arm h => do
    let st ← commitState .armed h st
    return (st, none)

/-- The result of judging a staging list: the first failing entry with its index and refusal, or the store with every
entry applied and the records to be checked for release, in staging order (R185, R188, R189). -/
inductive CommitResult where
  | failed (index : Nat) (tag : Byte) (why : Refused)
  | passed (st : Store) (lowered : List Handle)

/-- Judges and applies the entries from index `k` on, in staging order (R185 to R189). -/
def commitEntries (cfg : AxisNo → AxisConfig) :
    Nat → List StagedEntry → Store → List Handle → CommitResult
  | _, [], st, lowered => .passed st lowered
  | k, e :: rest, st, lowered =>
    match commitEntry cfg e.op st with
    | .error why => .failed k e.tag why
    | .ok (st, o) => commitEntries cfg (k + 1) rest st (lowered ++ o.toList)

/-- Every RESERVED slot becomes FREE with its generation raised, and each occupancy count goes down by the axis's
reserved records (R188, R192). -/
def unreserve (st : Store) : Store :=
  { st with
    slots := mapAll
      (fun sl =>
        match sl.content with
        | .reserved _ => ⟨sl.gen + 1, .free⟩
        | .free | .live _ => sl)
      st.slots
    occupancy := tabulate fun n => st.occupancy[n] - reservedCount st n }

/-- The number of RESERVED slots. -/
def reservedSlots (st : Store) : Nat :=
  st.slots.toList.countP fun sl =>
    match sl.content with
    | .reserved _ => true
    | .free | .live _ => false

/-- The batch closed (R178). -/
def closeBatch (s : State) : State :=
  { s with manager := { s.manager with batchOpen := false, staging := [] } }

/-- The items of COMMIT_FAILED: index, entry tag, entry code, and the field for BAD_FIELD (R188, R213). -/
def commitFailedItems (k : Nat) (tag : Byte) (why : Refused) : List Byte :=
  be8 k ++ [tag] ++ be8 (completionValue why.code) ++ (if why.code = .badField then why.items else [])

/-- COMMIT-BATCH (R185 to R189). -/
def commitBatch (f : Frame) (s : State) : Verdict (State × Reply) := do
  noBatchFlag f
  require s.manager.batchOpen (refuse .noBatch)
  match commitEntries (configs s) 0 s.manager.staging s.store [] with
  | .failed k tag why =>
    return (setStore (settle (unreserve s.store)) (closeBatch s), ⟨.commitFailed, [commitFailedItems k tag why]⟩)
  | .passed st lowered =>
    return storeReply (closeBatch s) (lowered.foldl (fun st h => releaseCheck h st) st)
      (be8 s.manager.staging.length)

/-- COMMIT_BATCH. -/
def execCommitBatch (s : State) : Host.Outcome State Fault Refusal :=
  serve (requestOf 13 s) commitBatch s

/-! ### DISCARD-BATCH -/

/-- DISCARD-BATCH (R192). -/
def discardBatch (f : Frame) (s : State) : Verdict (State × Reply) := do
  noBatchFlag f
  require s.manager.batchOpen (refuse .noBatch)
  return storeReply (closeBatch s) (unreserve s.store)
    (be8 s.manager.staging.length ++ be16 (reservedSlots s.store))

/-- DISCARD_BATCH. -/
def execDiscardBatch (s : State) : Host.Outcome State Fault Refusal :=
  serve (requestOf 14 s) discardBatch s

end Sys2Proof.Machine
end

