-- ==== Sys2Proof/Machine/CommandPort.lean ====
section
/-! DEFINITION. Hardware reset (R215), the transactions of the command port (R198 to R210), and the Schedule Manager's
taking of requests (R152 to R154). -/

namespace Sys2Proof.Machine

/-! ### Hardware reset -/

/-- The state that every block takes at reset. The levels the world drives on the input pins, the commands that
wait, and the count of free values used are not the part's to reset (R215, log entries 20, 22). -/
def resetBlocks (s : State) : State :=
  { State.reset with
    scsn := s.scsn
    inhn := s.inhn
    gates := s.gates
    axes := mapAll (fun a => { ({} : Axis) with xa := a.xa, xb := a.xb }) s.axes
    choices := s.choices
    pending := s.pending }

/-- HARDWARE_RESET: every block abandons its work and holds its reset values while RESETn is low (R215). -/
def execHardwareReset (s : State) : Host.Outcome State Fault Refusal :=
  .next { resetBlocks s with resetLow := true }

/-- RESET_END: RESETn rises and events are taken again (R215). -/
def execResetEnd (s : State) : Host.Outcome State Fault Refusal :=
  .next { s with resetLow := false }

/-! ### Transactions -/

/-- TRANSACTION_START: SCSn falls. The outgoing frame is chosen and formed, and stays for the whole transaction
(R198, R199). During reset the fall begins none (R210); SCSn cannot fall while it is low. -/
def execTransactionStart (s : State) : Host.Outcome State Fault Refusal :=
  if s.scsn = .low then .next s
  else if s.resetLow then .next { s with scsn := .low }
  else
    .next { s with
      scsn := .low
      port := { s.port with transaction := some ⟨outgoingFrame s, !s.port.responseQueue.isEmpty, 0⟩ } }

/-- The judgement of an incoming frame whose bits are `sdi`, by the first check that applies; `full` says that the
request queue holds 8 frames (R201). -/
def judgeFrame (clocks : Nat) (full : Bool) (sdi : List Bool) : FrameOutcome :=
  if clocks ≠ 256 then .badLength
  else if !frameCheckPasses (frameOfBits sdi) then .frameCheck
  else if u8 (frameOfBits sdi) 0 = 0 then .nop
  else if full then .queueFull
  else .accepted

/-- The tag of an incoming frame: byte 1 as received, or 0 when fewer than 16 bits were counted (R201). -/
def receivedTag (clocks : Nat) (sdi : List Bool) : Byte :=
  if clocks < 16 then 0 else sampledByte sdi 1

/-- The response queue after a transaction: a part sent in full leaves its head (R200). -/
def afterSending (t : Transaction) (clocks : Nat) (q : List ResponsePart) : List ResponsePart :=
  if t.sendsPart ∧ clocks = 256 then q.tail else q

/-- The end of transaction `t`: removal, judgement, append and report in one event (R200, R201, R207). -/
def endTransaction (t : Transaction) (sdi : List Bool) (p : Port) : Port :=
  let clocks := t.clocks + sdi.length
  let outcome := judgeFrame clocks (decide (Config.queuePlaces ≤ p.requestQueue.length)) sdi
  { p with
    responseQueue := afterSending t clocks p.responseQueue
    requestQueue := if outcome = .accepted then p.requestQueue ++ [frameOfBits sdi] else p.requestQueue
    lastOutcome := outcome
    lastTag := receivedTag clocks sdi
    resetFlag := p.resetFlag && decide (outcome ≠ .accepted)
    transaction := none }

/-- TRANSACTION_END: SCSn rises (R198, R200, R201). Without a transaction in progress only the pin changes (R210). -/
def execTransactionEnd (sdi : List Bool) (s : State) : Host.Outcome State Fault Refusal :=
  match s.port.transaction with
  | none => .next { s with scsn := .high }
  | some t => .next { s with scsn := .high, port := endTransaction t sdi s.port }

/-! ### Taking a request -/

/-- The number of parts of a request's response group, fixed by its code and fields (R153). A SCAN-AXIS with a count
outside 1 to 6 needs one place. -/
def partsNeeded (f : Frame) : Nat :=
  match u8 f 0 with
  | 6 | 10 => 2
  | 7 => if 1 ≤ u8 f 9 ∧ u8 f 9 ≤ 6 then (u8 f 9 + 1) / 2 else 1
  | _ => 1

/-- The response queue has room for the request's group (R152). -/
def roomFor (f : Frame) (p : Port) : Bool :=
  decide (partsNeeded f ≤ Config.queuePlaces - p.responseQueue.length)

/-- TAKE_REQUEST: the head request becomes the request in progress when none is and the response queue has room;
otherwise the manager waits (R152). -/
def execTakeRequest (s : State) : Host.Outcome State Fault Refusal :=
  match s.port.requestQueue, s.manager.inProgress with
  | f :: rest, none =>
    if !s.resetLow && roomFor f s.port then
      .next { s with
        port := { s.port with requestQueue := rest }
        manager := { s.manager with inProgress := some f } }
    else .next s
  | _, _ => .next s

/-- The request in progress, when its code names no request: 0, or 25 to 255 (section 10.6.1). -/
def unknownRequest (s : State) : Option Frame :=
  if s.resetLow then none
  else match s.manager.inProgress with
    | some f => if 1 ≤ u8 f 0 ∧ u8 f 0 ≤ 24 then none else some f
    | none => none

/-- UNKNOWN: the request completes with UNKNOWN and changes no state, whatever its batch flag (R154). -/
def unknownClaim (_f : Frame) (_s : State) : Verdict (State × Reply) :=
  .error (refuse .unknown)

/-- UNKNOWN. -/
def execUnknown (s : State) : Host.Outcome State Fault Refusal :=
  serve (unknownRequest s) unknownClaim s

end Sys2Proof.Machine
end

