-- ==== Sys2Proof/Machine/Lines.lean ====
section
/-! DEFINITION. The rows of the trip lines: DRIVE-LINE, CONFIG-LINE and LINE-STATUS (R131, R133, R134), the end of a dwell (R124),
pulse expiry (R127) and the inhibit input (R130). -/

namespace Sys2Proof.Machine

/-! ### Requests -/

/-- DRIVE_LINE: one claim arrives at the driver; the request completes when it is applied, which may be at once
(R131, R155). While it waits, the row does not arise again. -/
def execDriveLine (s : State) : Host.Outcome State Fault Refusal :=
  match requestOf driveLineCode s with
  | none => .next s
  | some f =>
    match readDrive f with
    | .error e => .next (answer f (.error e) s)
    | .ok (l, c) => if driveWaits l s then .next s else .next (claimArrives l c s)

/-- CONFIG_LINE. -/
def execConfigLine (s : State) : Host.Outcome State Fault Refusal :=
  serve (requestOf 23 s) configLine s

/-- LINE_STATUS. -/
def execLineStatus (s : State) : Host.Outcome State Fault Refusal :=
  serve (requestOf 24 s) lineStatus s

/-! ### Events of a driver -/

/-- DWELL_END: time passes until the dwell is complete, and the head claim, if any, is applied (R124). No dwell ends
when no claim has been applied since reset, or when the last dwell is complete and no claim waits (log entry 4). -/
def execDwellEnd (l : LineNo) (s : State) : Host.Outcome State Fault Refusal :=
  match s.lines[l].dwellStart with
  | none => .next s
  | some t => if s.resetLow then .next s else .next (applyHead l (advanceTo (t + Config.dwellTicks) s))

/-- PULSE_EXPIRY: time passes until the time left is 0, and the line becomes INACTIVE with no timer (R127). A timer
that does not run does not expire. -/
def execPulseExpiry (l : LineNo) (s : State) : Host.Outcome State Fault Refusal :=
  match s.lines[l].pulseEnd with
  | none => .next s
  | some t =>
    if s.resetLow then .next s
    else .next (setLine l { s.lines[l] with level := .inactive, pulseEnd := none } (advanceTo t s))

/-- INHIBIT_CHANGE: INHn takes its level; the pins follow as R129 gives, and no driver's state changes (R130). -/
def execInhibitChange (level : Level) (s : State) : Host.Outcome State Fault Refusal :=
  .next { s with inhn := level }

end Sys2Proof.Machine
end

