-- ==== Sys2Proof/Machine/Dispatch.lean ====
section
/-! DEFINITION. One arm for each command, in the table's order: its meaning on everything but the queue of commands that
wait. -/

namespace Sys2Proof.Machine

def exec (i : Instr) (s : State) : Host.Outcome State Fault Refusal :=
  match i with
  | .hardwareReset => Sys2Proof.Machine.execHardwareReset s
  | .resetEnd => Sys2Proof.Machine.execResetEnd s
  | .transactionStart => Sys2Proof.Machine.execTransactionStart s
  | .transactionEnd sdi => Sys2Proof.Machine.execTransactionEnd sdi s
  | .takeRequest => Sys2Proof.Machine.execTakeRequest s
  | .unknown => Sys2Proof.Machine.execUnknown s
  | .addTrip => Sys2Proof.Machine.execAddTrip s
  | .modifyTrip => Sys2Proof.Machine.execModifyTrip s
  | .retireTrip => Sys2Proof.Machine.execRetireTrip s
  | .holdTrip => Sys2Proof.Machine.execHoldTrip s
  | .armTrip => Sys2Proof.Machine.execArmTrip s
  | .queryTrip => Sys2Proof.Machine.execQueryTrip s
  | .scanAxis => Sys2Proof.Machine.execScanAxis s
  | .getBracket => Sys2Proof.Machine.execGetBracket s
  | .wipeStore => Sys2Proof.Machine.execWipeStore s
  | .readNotices => Sys2Proof.Machine.execReadNotices s
  | .ackNotices => Sys2Proof.Machine.execAckNotices s
  | .openBatch => Sys2Proof.Machine.execOpenBatch s
  | .stagedAddTrip => Sys2Proof.Machine.execStagedAddTrip s
  | .stagedModifyTrip => Sys2Proof.Machine.execStagedModifyTrip s
  | .stagedRetireTrip => Sys2Proof.Machine.execStagedRetireTrip s
  | .stagedHoldTrip => Sys2Proof.Machine.execStagedHoldTrip s
  | .stagedArmTrip => Sys2Proof.Machine.execStagedArmTrip s
  | .commitBatch => Sys2Proof.Machine.execCommitBatch s
  | .discardBatch => Sys2Proof.Machine.execDiscardBatch s
  | .configAxis => Sys2Proof.Machine.execConfigAxis s
  | .unparkAxis => Sys2Proof.Machine.execUnparkAxis s
  | .establishAxis => Sys2Proof.Machine.execEstablishAxis s
  | .resumeAxis => Sys2Proof.Machine.execResumeAxis s
  | .parkAxis => Sys2Proof.Machine.execParkAxis s
  | .axisStatus => Sys2Proof.Machine.execAxisStatus s
  | .postPosition => Sys2Proof.Machine.execPostPosition s
  | .driveLine => Sys2Proof.Machine.execDriveLine s
  | .configLine => Sys2Proof.Machine.execConfigLine s
  | .lineStatus => Sys2Proof.Machine.execLineStatus s
  | .quadEdge axis a b => Sys2Proof.Machine.execQuadEdge axis a b s
  | .indexEvent axis => Sys2Proof.Machine.execIndexEvent axis s
  | .sampleTimerExpiry axis => Sys2Proof.Machine.execSampleTimerExpiry axis s
  | .pollTimeout axis => Sys2Proof.Machine.execPollTimeout axis s
  | .pollEnd axis reply => Sys2Proof.Machine.execPollEnd axis reply s
  | .dwellEnd line => Sys2Proof.Machine.execDwellEnd line s
  | .pulseExpiry line => Sys2Proof.Machine.execPulseExpiry line s
  | .inhibitChange level => Sys2Proof.Machine.execInhibitChange level s
  | .gateChange gate level => Sys2Proof.Machine.execGateChange gate level s

end Sys2Proof.Machine
end

