-- ==== Sys2Proof/Safety.lean ====
section
/-! DEFINITION. The terms the certificates speak in: what the part keeps at every step, and what a request leaves when it
completes. -/

namespace Sys2Proof.Machine

/-- The attention line is asserted exactly when the notice set is non-empty (R142). -/
def AttentionFollows (s : State) : Prop :=
  s.store.attention = noticesWaiting s.store

/-- The queues and lists stay within their places (R122, R180, R197), and the response group of the request in progress
has its places free (R152). -/
def QueuesBounded (s : State) : Prop :=
  s.port.requestQueue.length ≤ 8 ∧
  s.port.responseQueue.length ≤ 8 ∧
  (∀ f, s.manager.inProgress = some f → s.port.responseQueue.length + partsNeeded f ≤ 8) ∧
  s.manager.staging.length ≤ 24 ∧
  ∀ l : LineNo, s.lines[l].claims.length ≤ 16

/-- Each occupancy count is the number of LIVE and RESERVED records of its axis (R8). -/
def OccupancyCounts (st : Store) : Prop :=
  ∀ n : AxisNo, st.occupancy[n] = liveCount st n + reservedCount st n

/-- The configuration record is one that CONFIG-AXIS takes, or the default (R72, R73). -/
def ConfigLegal (c : AxisConfig) : Prop :=
  (match c.span with
    | .linear => True
    | .rotary m => 16 ≤ m ∧ m ≤ 1073741824) ∧
  inRange .linear c.refValue = true ∧ inRange .linear c.offset = true ∧
  c.slewGuard ≤ 65535 ∧ c.quota ≤ 384 ∧
  8 ≤ c.wordWidth ∧ c.wordWidth ≤ 32 ∧
  50 ≤ c.samplePeriod ∧ c.samplePeriod ≤ 5000 ∧
  1 ≤ c.failureLimit ∧ c.failureLimit ≤ 15 ∧
  methodFitsSource c = true ∧ sumFits c = true

/-- An axis in a legal state: SEEKING only in UNREFERENCED (R74); the decoder runs exactly on a QUAD axis out of PARKED and
the sample timer exactly on a LINK axis out of PARKED (R49); a poll only in a state that acts on it (R57, R66); a HOST axis
is never FAULTED (R70); the failure count below its limit (R56); and the position in range out of PARKED (R36). -/
def AxisLegal (a : Axis) : Prop :=
  ConfigLegal a.config ∧
  (a.seeking = true → a.state = .unreferenced) ∧
  (a.decoderRunning = true ↔ a.config.source = .quad ∧ a.state ≠ .parked) ∧
  (a.sampleNext.isSome = true ↔ a.config.source = .link ∧ a.state ≠ .parked) ∧
  (a.poll.isSome = true → a.config.source = .link ∧ acts a.state = true) ∧
  (a.config.source = .host → a.state ≠ .faulted) ∧
  (a.config.source = .link → a.state ≠ .parked → a.failures < a.config.failureLimit) ∧
  (a.state ≠ .parked → inRange a.config.span a.position = true)

/-- Every axis is in a legal state. -/
def AxesLegal (s : State) : Prop :=
  ∀ n : AxisNo, AxisLegal s.axes[n]

/-- A pulse timer runs only while the level is ACTIVE (R127), and claims wait only behind an applied claim (R123). -/
def LineLegal (d : LineDriver) : Prop :=
  (d.pulseEnd.isSome = true → d.level = .active) ∧ (d.claims ≠ [] → d.dwellStart.isSome = true)

/-- Every line driver is in a legal state. -/
def LinesLegal (s : State) : Prop :=
  ∀ l : LineNo, LineLegal s.lines[l]

/-- A listed state: ARMED, DORMANT or HELD (R28). -/
def listed (x : RecordState) : Bool :=
  decide (x ≠ .spent)

/-- The slot holds a LIVE record of axis `n` in a listed state. -/
def isListed (st : Store) (n : AxisNo) (i : SlotNo) : Bool :=
  match liveAt st i with
  | some r => decide (r.axis = n) && listed r.state
  | none => false

/-- Every order list holds exactly the listed LIVE records of its axis, once each (R28), sorted by position (R29); a RESERVED
record waits in an initial state, with the store's fields as R14 sets them. -/
def ListsOrdered (st : Store) : Prop :=
  (∀ n : AxisNo,
    (∀ i : SlotNo, i ∈ st.lists[n] ↔ isListed st n i = true) ∧
    st.lists[n].Nodup ∧
    st.lists[n].Pairwise (fun i j => positionOf st i ≤ positionOf st j)) ∧
  ∀ i : SlotNo, ∀ r, st.slots[i].content = .reserved r →
    (r.state = .armed ∨ r.state = .dormant) ∧ r.predCount = 0 ∧ noKinds r.pending = true

/-- The LIVE records whose successor is `h` (R18). -/
def predecessors (st : Store) (h : Handle) : Nat :=
  st.slots.toList.countP fun sl =>
    match sl.content with
    | .live r => decide (r.successor = some h)
    | .free | .reserved _ => false

/-- Every LIVE record's predecessor count is the number of LIVE records whose successor names it (R18); a successor names a
LIVE record, and not the record itself (R5). -/
def LinksCounted (st : Store) : Prop :=
  ∀ i : SlotNo, ∀ r, liveAt st i = some r →
    r.predCount = predecessors st (handleOf st i) ∧
    r.successor ≠ some (handleOf st i) ∧
    ∀ h, r.successor = some h → (liveAs st h).isSome = true

/-- The handle that a staged ADD reserved (R180). -/
def reservedHandle (e : StagedEntry) : Option Handle :=
  match e.op with
  | .add _ h => some h
  | .modify _ _ | .retire _ | .hold _ | .arm _ => none

/-- The staging list is empty while no batch is open (R178); each staged ADD holds one RESERVED slot, with the record of its
fields and under its handle, and every RESERVED slot belongs to one (R180, R182). -/
def BatchConsistent (s : State) : Prop :=
  (s.manager.batchOpen = false → s.manager.staging = []) ∧
  (s.manager.staging.filterMap reservedHandle).Nodup ∧
  (∀ e ∈ s.manager.staging, ∀ fields h, e.op = .add fields h →
    s.store.slots[h.slot] = ⟨h.gen, .reserved (newRecord fields)⟩) ∧
  ∀ i : SlotNo, ∀ r, s.store.slots[i].content = .reserved r →
    handleOf s.store i ∈ s.manager.staging.filterMap reservedHandle

/-- No LIVE record meets the conditions of a release: each was freed at the first moment at which it met them (R21). -/
def NoneReleasable (st : Store) : Prop :=
  ∀ i : SlotNo, ∀ r, liveAt st i = some r → releasable r = false

/-- A run is safe while every one of these holds. -/
def Safe (s : State) : Prop :=
  AttentionFollows s ∧ QueuesBounded s ∧ OccupancyCounts s.store ∧ AxesLegal s ∧ LinesLegal s ∧
  ListsOrdered s.store ∧ LinksCounted s.store ∧ BatchConsistent s ∧ NoneReleasable s.store

/-! ### What a request leaves -/

/-- The request frame `f` with code `code` is in progress, and RESETn is high (R151). -/
abbrev InProgress (s : State) (f : Frame) (code : Nat) : Prop :=
  s.resetLow = false ∧ s.manager.inProgress = some f ∧ u8 f 0 = code

/-- Part `k` of `n` of the response to `f` (R212). -/
def partOf (f : Frame) (c : Completion) (k n : Nat) (items : List Byte) : ResponsePart :=
  { code := byteAt f 0, tag := byteAt f 1, completion := c, part := k, parts := n, result := fill 21 0 items }

/-- `s` after the request in progress has completed: the parts stand at the tail of the response queue, and no request is in
progress (R155). -/
def completedWith (parts : List ResponsePart) (s : State) : State :=
  { s with
    port := { s.port with responseQueue := s.port.responseQueue ++ parts }
    manager := { s.manager with inProgress := none } }

/-- `s` after the request `f` has completed with one part. -/
def answered (f : Frame) (c : Completion) (items : List Byte) (s : State) : State :=
  completedWith [partOf f c 1 1 items] s

/-- `s` with the axis entry of axis `n` replaced and the attention line following the notice set (R139, R142). -/
def withAxisEntry (n : AxisNo) (e : AxisEntry) (s : State) : State :=
  setStore (settle { s.store with axisNotices := put s.store.axisNotices n e }) s

/-- Slot `j` after the successor link of some record has moved from `old` to `new` (R18). -/
def relinked (old new : Option Handle) (st : Store) (j : SlotNo) : Slot :=
  match st.slots[j].content with
  | .live r =>
    if old = new then st.slots[j]
    else if new = some (handleOf st j) then
      { st.slots[j] with content := .live { r with predCount := r.predCount + 1 } }
    else if old = some (handleOf st j) then
      { st.slots[j] with content := .live { r with predCount := r.predCount - 1 } }
    else st.slots[j]
  | .free | .reserved _ => st.slots[j]

/-- The successor of a request names no LIVE record (R5). -/
def badSuccessor (st : Store) (o : Option Handle) : Prop :=
  ∃ h, o = some h ∧ liveAs st h = none

/-- Slot `i` is the lowest-numbered FREE slot (R7). -/
def IsLowestFree (st : Store) (i : SlotNo) : Prop :=
  st.slots[i].content = .free ∧ ∀ j : SlotNo, j < i → st.slots[j].content ≠ .free

end Sys2Proof.Machine
end

