-- ==== Sys2Proof/Certificates/Slice0/Obligations.lean ====
section
/-! DEFINITION. The statements for the provers. In each, a hypothesis speaks of the state and the operands alone; the conclusion
says what the command leaves, and equates whole states, so that it is the frame as well. -/

section

open Sys2Proof Sys2Proof.Machine

/-! ### The step -/

/-- A step carries out the command at the front of the queue with the queue's rest; on an empty queue a tick of 0.1 µs passes,
which is the model's choice (log entry 1). -/
def Obligations.StepRunsTheFrontCommand : Prop :=
  (∀ (c : Instr) (rest : List Instr) (s : State),
    s.pending = c :: rest → step s = exec c { s with pending := rest }) ∧
  ∀ s : State, s.pending = [] → step s = .next { s with now := s.now + 1 }

/-- Every command answers a next state, from every state, and leaves the queue of waiting commands alone. That a command whose event
cannot arise changes nothing, that states no run reaches get some effect, and that HARDWARE_RESET keeps the queue, is the model's
choice (log entries 4, 18, 20). -/
def Obligations.EveryCommandAnswersNextAndKeepsTheQueue : Prop :=
  ∀ (c : Instr) (s : State), ∃ t, exec c s = .next t ∧ t.pending = s.pending

/-! ### Hardware reset -/

/-- HARDWARE_RESET: every block takes its reset values, the trip pins are low and ATNn is high while RESETn is low, and
RESET_END changes nothing else. That the input pins, the queue and the count of free values keep what they hold, and that the clock restarts at 0, is
the model's choice (log entries 2, 20, 22). -/
def Obligations.HardwareResetGivesTheResetValues : Prop :=
  (∀ s : State, ∃ t, exec .hardwareReset s = .next t ∧
    (∀ i : SlotNo, t.store.slots[i] = ⟨0, .free⟩) ∧
    (∀ n : AxisNo, t.store.lists[n] = [] ∧ t.store.occupancy[n] = 0 ∧ t.store.axisNotices[n] = ⟨false, none, none⟩) ∧
    t.store.attention = false ∧
    t.manager = ⟨none, false, []⟩ ∧
    t.port = ⟨[], [], .nop, 0, true, none⟩ ∧
    (∀ l : LineNo, t.lines[l] = ⟨.inactive, .highActive, none, [], none, false⟩ ∧ tripPin t l = .low) ∧
    (∀ n : AxisNo, t.axes[n] =
      ⟨s.axes[n].xa, s.axes[n].xb, ⟨.quad, false, .linear, .none, 0, 0, 0, 0, 24, 250, 3⟩, .parked, 0, false, false, .none,
        false, (.low, .low), none, none, 0⟩) ∧
    attentionPin t = .high ∧
    t.resetLow = true ∧ t.now = 0 ∧
    t.scsn = s.scsn ∧ t.inhn = s.inhn ∧ t.gates = s.gates ∧ t.pending = s.pending ∧ t.choices = s.choices) ∧
  ∀ s : State, exec .resetEnd s = .next { s with resetLow := false }

/-- While RESETn is low every event but its rise moves nothing: only the levels that the world drives on the input pins
follow it. -/
def Obligations.DuringResetOnlyTheInputPinsFollow : Prop :=
  ∀ (c : Instr) (s t : State), s.resetLow = true → s.port.transaction = none →
    c ≠ .resetEnd → c ≠ .hardwareReset → exec c s = .next t →
    t = { s with scsn := t.scsn, inhn := t.inhn, gates := t.gates, axes := t.axes } ∧
    ∀ n : AxisNo, t.axes[n] = { s.axes[n] with xa := t.axes[n].xa, xb := t.axes[n].xb }

/-! ### The command port -/

/-- TRANSACTION_START: the fall of SCSn fixes the outgoing frame: the status header, the head response part or zeros, and a frame
check that passes. Nothing else changes. -/
def Obligations.TransactionStartFixesTheOutgoingFrame : Prop :=
  ∀ s : State, s.scsn = .high → s.resetLow = false →
    ∃ o : Frame,
      exec .transactionStart s =
        .next { s with
          scsn := .low
          port := { s.port with transaction := some ⟨o, decide (s.port.responseQueue ≠ []), 0⟩ } } ∧
      frameCheckPasses o = true ∧
      byteAt o 0 = BitVec.ofNat 8 (8 - s.port.requestQueue.length) ∧
      byteAt o 1 = BitVec.ofNat 8 s.port.responseQueue.length ∧
      byteAt o 2 = BitVec.ofNat 8 (s.store.attention.toNat + 2 * s.port.resetFlag.toNat
        + 4 * (decide (s.port.responseQueue ≠ [])).toNat) ∧
      byteAt o 3 = BitVec.ofNat 8 (outcomeValue s.port.lastOutcome) ∧
      byteAt o 4 = s.port.lastTag ∧
      match s.port.responseQueue with
      | [] => ∀ k, 5 ≤ k → k < 30 → byteAt o k = 0
      | p :: _ =>
        byteAt o 5 = p.code ∧ byteAt o 6 = p.tag ∧
        byteAt o 7 = BitVec.ofNat 8 (completionValue p.completion) ∧
        byteAt o 8 = BitVec.ofNat 8 (16 * p.part + p.parts) ∧
        ∀ k : Fin 21, byteAt o (9 + k.val) = p.result[k]

/-- TRANSACTION_END: a fully sent part leaves the response queue, and the incoming frame is judged, appended when it is
ACCEPTED, and reported with its tag; without a transaction in progress only the pin follows. -/
def Obligations.TransactionEndJudgesTheFrame : Prop :=
  (∀ (s : State) (tr : Transaction) (sdi : List Bool), s.port.transaction = some tr →
    let n := tr.clocks + sdi.length
    let f := frameOfBits sdi
    let outcome : FrameOutcome :=
      if n ≠ 256 then .badLength
      else if frameCheckPasses f = false then .frameCheck
      else if byteAt f 0 = 0 then .nop
      else if 8 ≤ s.port.requestQueue.length then .queueFull
      else .accepted
    exec (.transactionEnd sdi) s =
      .next { s with
        scsn := .high
        port :=
          { requestQueue :=
              if outcome = .accepted then s.port.requestQueue ++ [f] else s.port.requestQueue
            responseQueue :=
              if tr.sendsPart = true ∧ n = 256 then s.port.responseQueue.tail else s.port.responseQueue
            lastOutcome := outcome
            lastTag := if n < 16 then 0 else sampledByte sdi 1
            resetFlag := if outcome = .accepted then false else s.port.resetFlag
            transaction := none } }) ∧
  ∀ (s : State) (sdi : List Bool), s.port.transaction = none →
    exec (.transactionEnd sdi) s = .next { s with scsn := .high }

/-- TAKE_REQUEST: the head request becomes the request in progress when none is and the response queue has as many free places
as its group has parts. Otherwise, with too few free places, a request in progress or an empty request queue, the manager waits and
nothing changes. -/
def Obligations.TakeRequestWaitsForRoom : Prop :=
  (∀ s : State, s.manager.inProgress ≠ none ∨ s.port.requestQueue = [] → exec .takeRequest s = .next s) ∧
  ∀ (s : State) (f : Frame) (rest : List Frame),
    s.resetLow = false → s.port.requestQueue = f :: rest → s.manager.inProgress = none →
    let parts :=
      if u8 f 0 = 6 ∨ u8 f 0 = 10 then 2
      else if u8 f 0 = 7 ∧ (u8 f 9 = 3 ∨ u8 f 9 = 4) then 2
      else if u8 f 0 = 7 ∧ (u8 f 9 = 5 ∨ u8 f 9 = 6) then 3
      else 1
    exec .takeRequest s =
      .next
        (if s.port.responseQueue.length + parts ≤ 8 then
          { s with
            port := { s.port with requestQueue := rest }
            manager := { s.manager with inProgress := some f } }
        else s)

/-- UNKNOWN answers a request whose code names none, whatever its batch flag; the batch flag on a request that cannot be staged is
refused with BAD_FIELD, which names byte 2, bit 0; and so is an axis number above 7, which names byte 3, bit 7. -/
def Obligations.ManagerChecksCodeAndBatchFlag : Prop :=
  (∀ (s : State) (f : Frame), s.resetLow = false → s.manager.inProgress = some f → 25 ≤ u8 f 0 →
    exec .unknown s = .next (answered f .unknown [] s)) ∧
  (∀ (s : State) (f : Frame) (c : Instr) (code : Nat),
    (c, code) ∈ [(Instr.queryTrip, 6), (.scanAxis, 7), (.getBracket, 8), (.wipeStore, 9), (.readNotices, 10),
      (.ackNotices, 11), (.openBatch, 12), (.commitBatch, 13), (.discardBatch, 14), (.configAxis, 15), (.unparkAxis, 16),
      (.establishAxis, 17), (.resumeAxis, 18), (.parkAxis, 19), (.axisStatus, 20), (.postPosition, 21), (.driveLine, 22),
      (.configLine, 23), (.lineStatus, 24)] →
    InProgress s f code → batchFlag f = true →
    exec c s = .next (answered f .badField (be8 2 ++ be8 0) s)) ∧
  ∀ (s : State) (f : Frame) (c : Instr) (code : Nat),
    (c, code) ∈ [(Instr.scanAxis, 7), (.getBracket, 8), (.configAxis, 15), (.unparkAxis, 16), (.establishAxis, 17),
      (.resumeAxis, 18), (.parkAxis, 19), (.axisStatus, 20), (.postPosition, 21)] →
    InProgress s f code → batchFlag f = false → 8 ≤ u8 f 3 →
    exec c s = .next (answered f .badField (be8 3 ++ be8 7) s)

/-- Parts leave the response queue, and frames the request queue, by the events the spec names and no other: every other command
appends at most one group of one to three parts, which answers the request in progress and carries its code and tag. -/
def Obligations.OnlyItsOwnEventsMoveTheQueues : Prop :=
  ∀ (c : Instr) (s t : State), c ≠ .hardwareReset → (∀ sdi, c ≠ .transactionEnd sdi) → exec c s = .next t →
    (c ≠ .takeRequest → t.port.requestQueue = s.port.requestQueue) ∧
    ∃ group : List ResponsePart,
      t.port.responseQueue = s.port.responseQueue ++ group ∧
      (group ≠ [] →
        t.manager.inProgress = none ∧ group.length ≤ 3 ∧
        ∃ f, s.manager.inProgress = some f ∧
          ∀ p ∈ group, p.code = byteAt f 0 ∧ p.tag = byteAt f 1 ∧ p.parts = group.length)

/-- A request that completes with a refusal changes nothing but its own completion. -/
def Obligations.RefusedRequestChangesNothing : Prop :=
  ∀ (c : Instr) (s t : State) (p : ResponsePart), exec c s = .next t →
    t.port.responseQueue = s.port.responseQueue ++ [p] →
    p.completion ≠ .done → p.completion ≠ .accepted → p.completion ≠ .staged → p.completion ≠ .commitFailed →
    t = completedWith [p] s

/-! ### Record requests -/

/-- The target handle of a direct record request is resolved first: a slot above 383 is BAD_FIELD at byte 3, bit 7; a FREE slot or
another generation is STALE; a RESERVED slot of the same generation is NOT_LIVE. -/
def Obligations.TargetHandleIsResolvedFirst : Prop :=
  ∀ (s : State) (f : Frame) (c : Instr) (code : Nat),
    (c, code) ∈ [(Instr.modifyTrip, 2), (.retireTrip, 3), (.holdTrip, 4), (.armTrip, 5), (.queryTrip, 6)] →
    InProgress s f code → batchFlag f = false →
    (384 ≤ u16 f 3 / 64 → exec c s = .next (answered f .badField (be8 3 ++ be8 7) s)) ∧
    ∀ i : SlotNo, u16 f 3 / 64 = i.val →
      ((s.store.slots[i].content = .free ∨ s.store.slots[i].gen ≠ BitVec.ofNat 6 (u16 f 3)) →
        exec c s = .next (answered f .stale [] s)) ∧
      (s.store.slots[i].gen = BitVec.ofNat 6 (u16 f 3) → (∃ r, s.store.slots[i].content = .reserved r) →
        exec c s = .next (answered f .notLive [] s))

/-- The fields of an ADD-TRIP, direct or staged: the first field of the table that fails its check is named, at its place in the frame,
and when none fails the fields are those of the frame. The ranges of position and pitch are those of the axis. Which byte names a
failing field is read from the layout (log entry 10). -/
def Obligations.AddTripFieldsAreCheckedInOrder : Prop :=
  ∀ (cfg : AxisNo → AxisConfig) (f : Frame),
    (8 ≤ u8 f 4 → readTripFields cfg f = .error (badField 4 7)) ∧
    ∀ n : AxisNo, u8 f 4 = n.val →
      let pulse := lowHalf f 9 = 3
      let width := bitAt f 3 0
      let greatestPitch := match (cfg n).span with
        | .linear => 1073741824
        | .rotary m => m - 1
      let failing : List (Bool × Nat × Nat) :=
        [(match (cfg n).span with
            | .linear => false
            | .rotary m => decide (i32 f 5 < 0 ∨ (m : Int) ≤ i32 f 5), 5, 7),
          (decide (3 ≤ highHalf f 9), 9, 7),
          (decide (4 ≤ lowHalf f 9), 9, 3),
          (decide (16 ≤ u8 f 10), 10, 7),
          (decide ((pulse ∧ width = false) ∨ (¬ pulse ∧ width = true) ∨ (width = true ∧ u16 f 11 = 0)), 11, 7),
          (decide (bitAt f 3 1 = true ∧ (u32 f 13 = 0 ∨ greatestPitch < u32 f 13)), 13, 7),
          (decide (bitAt f 3 2 = true ∧ u16 f 17 = 0), 17, 7),
          (decide (bitAt f 3 3 = true ∧ 384 ≤ u16 f 19 / 64), 19, 7),
          (decide (bitAt f 3 4 = true ∧ (4 ≤ highHalf f 21 ∨ 2 ≤ lowHalf f 21)), 21, 7),
          (decide (4 ≤ highHalf f 22), 22, 7),
          (decide (2 ≤ lowHalf f 22), 22, 3),
          (decide (2 ≤ u8 f 25), 25, 7)]
      match failing.find? (·.1) with
      | some (_, byte, bit) => readTripFields cfg f = .error (badField byte bit)
      | none =>
        ∃ x, readTripFields cfg f = .ok x ∧
          x.axis = n ∧ x.position = i32 f 5 ∧
          qualifierCode x.qualifier = highHalf f 9 ∧ actionCode x.action = lowHalf f 9 ∧ x.line.val = u8 f 10 ∧
          x.width = (if width then some (u16 f 11) else none) ∧
          x.pitch = (if bitAt f 3 1 then some (u32 f 13) else none) ∧
          x.repeats = (if bitAt f 3 2 then some (u16 f 17) else none) ∧
          x.successor.map (fun h => (h.slot.val, h.gen)) =
            (if bitAt f 3 3 then some (u16 f 19 / 64, BitVec.ofNat 6 (u16 f 19)) else none) ∧
          x.gate.map (fun g => (g.input.val, levelCode g.level)) =
            (if bitAt f 3 4 then some (highHalf f 21, lowHalf f 21) else none) ∧
          notifyCode x.notify = highHalf f 22 ∧ endModeCode x.endMode = lowHalf f 22 ∧ x.tag = u16 f 23 ∧
          stateCode x.state = u8 f 25

/-- The change entries of a MODIFY-TRIP and its SET values, direct or staged. An entry is two bits, KEEP 0, SET 1, REMOVE 2; the first
one in the order of the table of R9 that may not stand for its field is named. Then the first value that fails its check is named,
in the order of the table of R157; with a target the checks that depend on its axis and on the record are made in their places, and
without one, as at staging, they are not. Which byte names a failing field is read from the layout (log entry 10). That the first
of several refused entries is the one named, and that at staging the entries come before the values and the values in the order of
R157, is the model's choice (log entry 24). -/
def Obligations.ModifyTripChangesAreCheckedInOrder : Prop :=
  (∀ f : Frame,
    let high := fun i : Nat => bitAt f (5 + i / 4) (7 - 2 * (i % 4))
    let low := fun i : Nat => bitAt f (5 + i / 4) (6 - 2 * (i % 4))
    let refused := fun i : Nat =>
      (high i = true ∧ low i = true) ∨ ((high i = true ∨ low i = true) ∧ (i < 2 ∨ 13 < i)) ∨
      (high i = true ∧ (i < 6 ∨ 10 < i))
    ((∀ i < 19, ¬ refused i) → checkEntries f = .ok ()) ∧
    ∀ i < 19, refused i → (∀ j < i, ¬ refused j) → checkEntries f = .error (badField (5 + i / 4) (7 - 2 * (i % 4)))) ∧
  ∀ (judge : Option (AxisConfig × TripRecord)) (f : Frame), checkEntries f = .ok () →
    let set := fun i : Nat => bitAt f (5 + i / 4) (6 - 2 * (i % 4))
    let remove := fun i : Nat => bitAt f (5 + i / 4) (7 - 2 * (i % 4))
    let badPosition := fun c : AxisConfig => match c.span with
      | .linear => false
      | .rotary m => decide (i32 f 10 < 0 ∨ (m : Int) ≤ i32 f 10)
    let greatestPitch := fun c : AxisConfig => match c.span with
      | .linear => 1073741824
      | .rotary m => m - 1
    let inconsistent := fun r : TripRecord =>
      let pulse := if set 4 then lowHalf f 14 = 3 else r.action = .pulse
      let width := if set 6 then some (u16 f 16) else if remove 6 then none else r.width
      decide ((pulse ∧ (width = none ∨ width = some 0)) ∨ (¬ pulse ∧ width ≠ none))
    let failing : List (Bool × Nat × Nat) :=
      [(set 2 && judge.any fun j => badPosition j.1, 10, 7),
        (set 3 && decide (3 ≤ highHalf f 14), 14, 7),
        (set 4 && decide (4 ≤ lowHalf f 14), 14, 3),
        (set 5 && decide (16 ≤ u8 f 15), 15, 7),
        ((set 6 && decide (u16 f 16 = 0)) || judge.any fun j => inconsistent j.2, 16, 7),
        (set 7 && (decide (u32 f 18 = 0 ∨ 1073741824 < u32 f 18) || judge.any fun j => decide (greatestPitch j.1 < u32 f 18)),
          18, 7),
        (set 8 && decide (u16 f 22 = 0), 22, 7),
        (set 9 && decide (384 ≤ u16 f 24 / 64), 24, 7),
        (set 10 && decide (4 ≤ highHalf f 26 ∨ 2 ≤ lowHalf f 26), 26, 7),
        (set 11 && decide (4 ≤ highHalf f 27), 27, 7),
        (set 12 && decide (2 ≤ lowHalf f 27), 27, 3)]
    let fits := fun {α : Type} (i : Nat) (c : Change α) (value : α → Prop) =>
      (set i = true → ∃ v, c = .set v ∧ value v) ∧ (remove i = true → c = .remove) ∧
      (set i = false → remove i = false → c = .keep)
    match failing.find? (·.1) with
    | some (_, byte, bit) => readChanges judge f = .error (badField byte bit)
    | none =>
      ∃ ch, readChanges judge f = .ok ch ∧
        ch.position = (if set 2 then some (i32 f 10) else none) ∧
        ch.qualifier.map qualifierCode = (if set 3 then some (highHalf f 14) else none) ∧
        ch.action.map actionCode = (if set 4 then some (lowHalf f 14) else none) ∧
        ch.line.map (·.val) = (if set 5 then some (u8 f 15) else none) ∧
        fits 6 ch.width (· = u16 f 16) ∧ fits 7 ch.pitch (· = u32 f 18) ∧ fits 8 ch.repeats (· = u16 f 22) ∧
        fits 9 ch.successor (fun h => h.slot.val = u16 f 24 / 64 ∧ h.gen = BitVec.ofNat 6 (u16 f 24)) ∧
        fits 10 ch.gate (fun g => g.input.val = highHalf f 26 ∧ levelCode g.level = lowHalf f 26) ∧
        ch.notify.map notifyCode = (if set 11 then some (highHalf f 27) else none) ∧
        ch.endMode.map endModeCode = (if set 12 then some (lowHalf f 27) else none) ∧
        ch.tag = (if set 13 then some (u16 f 28) else none)

/-- ADD_TRIP, direct: the first field that fails its check, then BAD_LINK, then FULL, then QUOTA, and otherwise the new record in the
lowest FREE slot, placed as the newest of its equals, with its successor counted. -/
def Obligations.AddTripOutcome : Prop :=
  (∀ (s : State) (f : Frame) (e : Refused), InProgress s f 1 → batchFlag f = false →
    readTripFields (fun n => s.axes[n].config) f = .error e → exec .addTrip s = .next (answered f e.code e.items s)) ∧
  ∀ (s : State) (f : Frame) (fields : TripFields), InProgress s f 1 → batchFlag f = false →
    readTripFields (fun n => s.axes[n].config) f = .ok fields →
    (badSuccessor s.store fields.successor → exec .addTrip s = .next (answered f .badLink [] s)) ∧
    (¬ badSuccessor s.store fields.successor → (∀ i : SlotNo, s.store.slots[i].content ≠ .free) →
      exec .addTrip s = .next (answered f .full [] s)) ∧
    ∀ i : SlotNo, ¬ badSuccessor s.store fields.successor → IsLowestFree s.store i →
      (s.axes[fields.axis].config.quota ≠ 0 → s.axes[fields.axis].config.quota ≤ s.store.occupancy[fields.axis] →
        exec .addTrip s = .next (answered f .quota [] s)) ∧
      (s.axes[fields.axis].config.quota = 0 ∨ s.store.occupancy[fields.axis] < s.axes[fields.axis].config.quota →
        ∃ st : Store,
          exec .addTrip s =
            .next (answered f .done (handleBytes (handleOf s.store i)) (setStore (settle st) s)) ∧
          st.slots[i] = ⟨s.store.slots[i].gen, .live { fields with }⟩ ∧
          (∀ j : SlotNo, j ≠ i → st.slots[j] = relinked none fields.successor s.store j) ∧
          st.lists = put s.store.lists fields.axis
            (placeIn (positionOf st) i fields.position s.store.lists[fields.axis]) ∧
          st.occupancy = put s.store.occupancy fields.axis (s.store.occupancy[fields.axis] + 1) ∧
          st.axisNotices = s.store.axisNotices)

/-- Placement in a sorted list: the record stands directly after every entry at or below its position and before every entry
above it, and the others keep their order. -/
def Obligations.PlacementIsTheNewestOfItsEquals : Prop :=
  ∀ (pos : SlotNo → Int) (i : SlotNo) (p : Int) (l : List SlotNo), l.Pairwise (fun a b => pos a ≤ pos b) →
    ∃ front back, l = front ++ back ∧ placeIn pos i p l = front ++ i :: back ∧
      (∀ a ∈ front, pos a ≤ p) ∧ ∀ b ∈ back, p < pos b

/-- MODIFY_TRIP, direct, on a LIVE record: the checks of the change entries, of the state, of the values and of the successor, in
this order, and otherwise the fields replaced, the record re-placed when a position is SET, the link moved, and the former
successor checked for release. Which of several refused change entries is named is the model's choice (log entry 24). -/
def Obligations.ModifyTripOutcome : Prop :=
  ∀ (s : State) (f : Frame) (h : Handle) (r : TripRecord), InProgress s f 2 → batchFlag f = false →
    handleAt f 3 = some h → liveAs s.store h = some r → r.successor ≠ some h →
    (∀ e, checkEntries f = .error e → exec .modifyTrip s = .next (answered f e.code e.items s)) ∧
    (checkEntries f = .ok () → r.state = .spent → exec .modifyTrip s = .next (answered f .wrongState [] s)) ∧
    (checkEntries f = .ok () → r.state ≠ .spent →
      (∀ e, readChanges (some (s.axes[r.axis].config, r)) f = .error e →
        exec .modifyTrip s = .next (answered f e.code e.items s)) ∧
      ∀ ch, readChanges (some (s.axes[r.axis].config, r)) f = .ok ch →
        (ch.successor = .set h ∨ (∃ k, ch.successor = .set k ∧ liveAs s.store k = none) →
          exec .modifyTrip s = .next (answered f .badLink [] s)) ∧
        (ch.successor ≠ .set h → (∀ k, ch.successor = .set k → liveAs s.store k ≠ none) →
          let r' := changed r ch
          let former := if r.successor = r'.successor then none else r.successor
          ∃ st : Store,
            let done := releaseCheckOf former st
            let released := match former with
              | some k => (liveAs done k).isNone
              | none => false
            exec .modifyTrip s =
              .next (answered f .done (be32 r'.position ++ be8 (stateCode r'.state) ++ flagByte released)
                (setStore (settle done) s)) ∧
            st.slots[h.slot] = ⟨h.gen, .live r'⟩ ∧
            (∀ j : SlotNo, j ≠ h.slot → st.slots[j] = relinked r.successor r'.successor s.store j) ∧
            st.lists =
              (match ch.position with
                | some p => put s.store.lists r.axis
                    (placeIn (positionOf st) h.slot p (s.store.lists[r.axis].filter (· ≠ h.slot)))
                | none => s.store.lists) ∧
            st.occupancy = s.store.occupancy ∧
            st.axisNotices = s.store.axisNotices))

/-- RETIRE_TRIP, direct, on a LIVE record: IN_USE with the predecessor count while a record names it; otherwise the record leaves
its list, its slot is freed with its generation raised, its axis's count goes down, and its successor, no longer counted, is
checked for release. -/
def Obligations.RetireTripOutcome : Prop :=
  ∀ (s : State) (f : Frame) (h : Handle) (r : TripRecord), InProgress s f 3 → batchFlag f = false →
    handleAt f 3 = some h → liveAs s.store h = some r →
    (r.predCount ≠ 0 → exec .retireTrip s = .next (answered f .inUse (be16 r.predCount) s)) ∧
    (r.predCount = 0 →
      ∃ st : Store,
        exec .retireTrip s =
          .next (answered f .done
            (be8 (stateCode r.state)
              ++ bitsByte [r.pending.fired, r.pending.spent, r.pending.overtaken, false, false, false])
            (setStore (settle (releaseCheckOf r.successor st)) s)) ∧
        st.slots[h.slot] = ⟨h.gen + 1, .free⟩ ∧
        (∀ j : SlotNo, j ≠ h.slot → st.slots[j] = relinked r.successor none s.store j) ∧
        st.lists =
          (if r.state = .spent then s.store.lists
          else put s.store.lists r.axis (s.store.lists[r.axis].filter (· ≠ h.slot))) ∧
        st.occupancy = put s.store.occupancy r.axis (s.store.occupancy[r.axis] - 1) ∧
        st.axisNotices = s.store.axisNotices)

/-- HOLD_TRIP and ARM_TRIP, direct, on a LIVE record: WRONG_STATE when it is SPENT; otherwise it becomes HELD or ARMED at its
place, the response gives the state before, and nothing else changes. -/
def Obligations.HoldAndArmTripOutcome : Prop :=
  ∀ (s : State) (f : Frame) (h : Handle) (r : TripRecord) (c : Instr) (code : Nat) (new : RecordState),
    (c, code, new) ∈ [(Instr.holdTrip, 4, RecordState.held), (.armTrip, 5, .armed)] →
    InProgress s f code → batchFlag f = false → handleAt f 3 = some h → liveAs s.store h = some r →
    (r.state = .spent → exec c s = .next (answered f .wrongState [] s)) ∧
    (r.state ≠ .spent →
      exec c s =
        .next (answered f .done (be8 (stateCode r.state))
          (setStore
            (settle { s.store with slots := put s.store.slots h.slot ⟨h.gen, .live { r with state := new }⟩ }) s)))

/-- QUERY_TRIP of a LIVE record and AXIS_STATUS of any axis report and change nothing. -/
def Obligations.QueryTripAndAxisStatusReport : Prop :=
  (∀ (s : State) (f : Frame) (h : Handle) (r : TripRecord), InProgress s f 6 → batchFlag f = false →
    handleAt f 3 = some h → liveAs s.store h = some r →
    let head := handleBytes h ++ be16 r.tag ++ be32 r.position ++ be8 (stateCode r.state)
    exec .queryTrip s =
      .next (completedWith
        [partOf f .done 1 2
          (bitsByte [r.width.isSome, r.pitch.isSome, r.gate.isSome] ++ head
            ++ be8 r.axis.val ++ halves (qualifierCode r.qualifier) (actionCode r.action) ++ be8 r.line.val
            ++ be16 (r.width.getD 0) ++ be32 (r.pitch.getD 0)
            ++ (match r.gate with
              | some g => halves g.input.val (levelCode g.level)
              | none => [0])
            ++ halves (notifyCode r.notify) (endModeCode r.endMode)),
         partOf f .done 2 2
          (bitsByte [r.repeats.isSome, r.successor.isSome, r.lastDirection.isSome] ++ head
            ++ be16 (r.repeats.getD 0)
            ++ (match r.successor with
              | some k => handleBytes k
              | none => [0, 0])
            ++ be16 r.fireCount
            ++ (match r.lastDirection with
              | some d => be8 (travelCode d)
              | none => [0])
            ++ be16 r.predCount
            ++ bitsByte [r.pending.fired, r.pending.spent, r.pending.overtaken, false, false, false])] s)) ∧
  ∀ (s : State) (f : Frame) (n : AxisNo), InProgress s f 20 → batchFlag f = false → u8 f 3 = n.val →
    let a := s.axes[n]
    exec .axisStatus s =
      .next (answered f .done
        (halves (axisStateCode a.state) (causeCode a.lastCause) ++ be32 a.position ++ flagByte a.seeking ++ flagByte a.warn
          ++ be8 (if a.config.source = .link then a.failures else 0)
          ++ be16 (liveCount s.store n) ++ be16 (reservedCount s.store n)) s)

/-- SCAN_AXIS: the axis, the direction, the count, the skip and the start position are checked in this order. Of a sorted list it
then reports, up to the count and after the skip, the records from the starting record on in scan order, two to a part, each with
its handle, position, state and tag, with the more flag in the last part; it changes nothing. A listed slot that is not LIVE, which
no run reaches, shows zeros (log entry 18). -/
def Obligations.ScanAxisReportsFromTheStart : Prop :=
  (∀ (s : State) (f : Frame), InProgress s f 7 → batchFlag f = false →
    (8 ≤ u8 f 3 → exec .scanAxis s = .next (answered f .badField (be8 3 ++ be8 7) s)) ∧
    ∀ n : AxisNo, u8 f 3 = n.val →
      (2 ≤ u8 f 8 → exec .scanAxis s = .next (answered f .badField (be8 8 ++ be8 7) s)) ∧
      (u8 f 8 ≤ 1 → (u8 f 9 = 0 ∨ 7 ≤ u8 f 9) → exec .scanAxis s = .next (answered f .badField (be8 9 ++ be8 7) s)) ∧
      (u8 f 8 ≤ 1 → 1 ≤ u8 f 9 → u8 f 9 ≤ 6 → 384 ≤ u16 f 10 →
        exec .scanAxis s = .next (answered f .badField (be8 10 ++ be8 7) s)) ∧
      (u8 f 8 ≤ 1 → 1 ≤ u8 f 9 → u8 f 9 ≤ 6 → u16 f 10 ≤ 383 → ∀ m, s.axes[n].config.span = .rotary m →
        (i32 f 4 < 0 ∨ (m : Int) ≤ i32 f 4) → exec .scanAxis s = .next (answered f .badField (be8 4 ++ be8 7) s))) ∧
  ∀ (s : State) (f : Frame) (n : AxisNo), InProgress s f 7 → batchFlag f = false → u8 f 3 = n.val → u8 f 8 ≤ 1 →
    1 ≤ u8 f 9 → u8 f 9 ≤ 6 → u16 f 10 ≤ 383 → inRange s.axes[n].config.span (i32 f 4) = true →
    s.store.lists[n].Pairwise (fun i j => positionOf s.store i ≤ positionOf s.store j) →
    let fromStart :=
      if u8 f 8 = 0 then s.store.lists[n].dropWhile fun i => decide (positionOf s.store i < i32 f 4)
      else s.store.lists[n].reverse.dropWhile fun i => decide (i32 f 4 < positionOf s.store i)
    let after := fromStart.drop (u16 f 10)
    let parts := (u8 f 9 + 1) / 2
    let reported := after.take (u8 f 9)
    let item := fun o : Option SlotNo => match o.bind fun i => (liveAt s.store i).map fun r => (i, r) with
      | some (i, r) => handleBytes (handleOf s.store i) ++ be32 r.position ++ be8 (stateCode r.state) ++ be16 r.tag
      | none => [0, 0, 0, 0, 0, 0, 0, 0, 0]
    exec .scanAxis s =
      .next (completedWith
        ((List.range parts).map fun k =>
          partOf f .done (k + 1) parts
            (bitsByte [decide (2 * k < reported.length), decide (2 * k + 1 < reported.length)]
              ++ item reported[2 * k]? ++ item reported[2 * k + 1]?
              ++ (if k + 1 = parts then flagByte (decide (u8 f 9 < after.length)) else []))) s)

/-- GET_BRACKET answers in every axis state with the axis position and its two neighbours, and changes nothing; the neighbours
are those of R37 and, on a rotary axis, of R38. -/
def Obligations.GetBracketReportsTheNeighbours : Prop :=
  (∀ (s : State) (f : Frame) (n : AxisNo), InProgress s f 8 → batchFlag f = false → u8 f 3 = n.val →
    let lower := lowerNeighbour s.store n s.axes[n].config.span s.axes[n].position
    let upper := upperNeighbour s.store n s.axes[n].config.span s.axes[n].position
    let item := fun o : Option SlotNo => match o with
      | some i => handleBytes (handleOf s.store i) ++ be32 (positionOf s.store i)
      | none => [0, 0, 0, 0, 0, 0]
    exec .getBracket s =
      .next (answered f .done
        (bitsByte [lower.isSome, upper.isSome] ++ be32 s.axes[n].position ++ item lower ++ item upper) s)) ∧
  ∀ (st : Store) (n : AxisNo) (p : Int),
    (∀ (sp : Span) (i : SlotNo) (front back : List SlotNo), st.lists[n] = front ++ i :: back →
      (positionOf st i ≤ p → (∀ j ∈ back, p < positionOf st j) → lowerNeighbour st n sp p = some i) ∧
      (p < positionOf st i → (∀ j ∈ front, positionOf st j ≤ p) → upperNeighbour st n sp p = some i)) ∧
    ((∀ j ∈ st.lists[n], p < positionOf st j) →
      lowerNeighbour st n .linear p = none ∧ ∀ m, lowerNeighbour st n (.rotary m) p = st.lists[n].getLast?) ∧
    ((∀ j ∈ st.lists[n], positionOf st j ≤ p) →
      upperNeighbour st n .linear p = none ∧ ∀ m, upperNeighbour st n (.rotary m) p = st.lists[n].head?)

/-- WIPE_STORE frees every LIVE and RESERVED slot with its generation raised, empties the lists and counts, keeps the axis
entries, closes an open batch, and gives the number of slots freed; nothing else changes. -/
def Obligations.WipeStoreEmptiesTheStore : Prop :=
  ∀ (s : State) (f : Frame), InProgress s f 9 → batchFlag f = false →
    ∃ st : Store,
      exec .wipeStore s =
        .next (answered f .done (be16 (s.store.slots.toList.countP fun x => decide (x.content ≠ .free)))
          { s with store := st, manager := { s.manager with batchOpen := false, staging := [] } }) ∧
      (∀ i : SlotNo, st.slots[i] =
        if s.store.slots[i].content = .free then s.store.slots[i] else ⟨s.store.slots[i].gen + 1, .free⟩) ∧
      (∀ n : AxisNo, st.lists[n] = [] ∧ st.occupancy[n] = 0) ∧
      st.axisNotices = s.store.axisNotices ∧
      (st.attention = true ↔ ∃ n : AxisNo, hasAxisEntry s.store.axisNotices[n] = true)

/-! ### Notices -/

/-- READ_NOTICES reports the first five entries after the resume key, with the more flag, and changes nothing; a resume key above
391 is refused. The entries stand in ascending reading key, the axis number for an axis and 8 plus the slot for a record; an axis
entry gives its kinds, axis and causes, a record entry its kinds and state, handle, tag and fire count. -/
def Obligations.ReadNoticesReportsInReadingOrder : Prop :=
  (∀ (s : State) (f : Frame), InProgress s f 10 → batchFlag f = false → bitAt f 3 0 = true → 392 ≤ u16 f 4 →
    exec .readNotices s = .next (answered f .badField (be8 4 ++ be8 7) s)) ∧
  (∀ (s : State) (f : Frame), InProgress s f 10 → batchFlag f = false → (bitAt f 3 0 = true → u16 f 4 ≤ 391) →
    let selected :=
      ((noticeEntries s.store).filter fun e => bitAt f 3 0 = false ∨ u16 f 4 < e.1).map (·.2)
    let blank : List Byte := [0, 0, 0, 0, 0, 0, 0]
    exec .readNotices s =
      .next (completedWith
        [partOf f .done 1 2
          (selected.getD 0 blank ++ selected.getD 1 blank ++ selected.getD 2 blank),
         partOf f .done 2 2
          (selected.getD 3 blank ++ selected.getD 4 blank ++ flagByte (decide (5 < selected.length)))] s)) ∧
  ∀ st : Store,
    (noticeEntries st).Pairwise (fun e e' => e.1 < e'.1) ∧
    ∀ (k : Nat) (item : List Byte), (k, item) ∈ noticeEntries st ↔
      (∃ n : AxisNo,
        let e := st.axisNotices[n]
        k = n.val ∧ (e.referenced = true ∨ e.suspect ≠ none ∨ e.faulted ≠ none) ∧
        item =
          bitsByte [false, false, false, e.referenced, e.suspect.isSome, e.faulted.isSome] ++ be8 n.val
            ++ halves (causeCode (e.suspect.getD .none)) (causeCode (e.faulted.getD .none)) ++ [0, 0, 0, 0]) ∨
      ∃ (i : SlotNo) (r : TripRecord), k = 8 + i.val ∧ liveAt st i = some r ∧ r.pending ≠ ⟨false, false, false⟩ ∧
        item =
          bitsByte [r.pending.fired, r.pending.spent, r.pending.overtaken, false, false, false,
              decide (r.state = .armed ∨ r.state = .spent), decide (r.state = .held ∨ r.state = .spent)]
            ++ handleBytes (handleOf st i) ++ be16 r.tag ++ be16 r.fireCount

/-- ACK_NOTICES: its checks in order; then it clears the kinds that are named and pending. Of a record, an emptied set leads to the
release check; of an axis, the cleared causes are given. Nothing else changes. That byte 3 names the sort, byte 4 the subject and
byte 6 the kinds is read from the layout (log entry 10). -/
def Obligations.AckNoticesClearsTheNamedKinds : Prop :=
  (∀ (s : State) (f : Frame), InProgress s f 11 → batchFlag f = false →
    let recordKind := bitAt f 6 0 = true ∨ bitAt f 6 1 = true ∨ bitAt f 6 2 = true
    let axisKind := bitAt f 6 3 = true ∨ bitAt f 6 4 = true ∨ bitAt f 6 5 = true
    (2 ≤ u8 f 3 → exec .ackNotices s = .next (answered f .badField (be8 3 ++ be8 7) s)) ∧
    (u8 f 3 = 0 → 8 ≤ u16 f 4 → exec .ackNotices s = .next (answered f .badField (be8 4 ++ be8 7) s)) ∧
    (u8 f 3 = 0 → u16 f 4 ≤ 7 → (recordKind ∨ ¬ axisKind) →
      exec .ackNotices s = .next (answered f .badField (be8 6 ++ be8 7) s)) ∧
    (u8 f 3 = 1 → 384 ≤ u16 f 4 / 64 → exec .ackNotices s = .next (answered f .badField (be8 4 ++ be8 7) s)) ∧
    ∀ i : SlotNo, u8 f 3 = 1 → u16 f 4 / 64 = i.val →
      (s.store.slots[i].content = .free ∨ s.store.slots[i].gen ≠ BitVec.ofNat 6 (u16 f 4) →
        exec .ackNotices s = .next (answered f .stale [] s)) ∧
      (s.store.slots[i].gen = BitVec.ofNat 6 (u16 f 4) → (∃ r, s.store.slots[i].content = .reserved r) →
        exec .ackNotices s = .next (answered f .notLive [] s)) ∧
      (s.store.slots[i].gen = BitVec.ofNat 6 (u16 f 4) → (∃ r, s.store.slots[i].content = .live r) →
        (axisKind ∨ ¬ recordKind) → exec .ackNotices s = .next (answered f .badField (be8 6 ++ be8 7) s))) ∧
  (∀ (s : State) (f : Frame) (h : Handle) (r : TripRecord), InProgress s f 11 → batchFlag f = false → u8 f 3 = 1 →
    handleAt f 4 = some h → liveAs s.store h = some r →
    bitAt f 6 3 = false → bitAt f 6 4 = false → bitAt f 6 5 = false →
    (bitAt f 6 0 = true ∨ bitAt f 6 1 = true ∨ bitAt f 6 2 = true) →
    let k := r.pending
    let cleared : RecordKinds := ⟨k.fired && bitAt f 6 0, k.spent && bitAt f 6 1, k.overtaken && bitAt f 6 2⟩
    let left : RecordKinds := ⟨k.fired && !bitAt f 6 0, k.spent && !bitAt f 6 1, k.overtaken && !bitAt f 6 2⟩
    let st : Store := { s.store with slots := put s.store.slots h.slot ⟨h.gen, .live { r with pending := left }⟩ }
    let done := if left = ⟨false, false, false⟩ ∧ cleared ≠ ⟨false, false, false⟩ then releaseCheck h st else st
    exec .ackNotices s =
      .next (answered f .done
        (bitsByte [cleared.fired, cleared.spent, cleared.overtaken, false, false, false]
          ++ bitsByte [left.fired, left.spent, left.overtaken, false, false, false]
          ++ flagByte (liveAs done h).isNone)
        (setStore (settle done) s))) ∧
  ∀ (s : State) (f : Frame) (n : AxisNo), InProgress s f 11 → batchFlag f = false → u8 f 3 = 0 → u16 f 4 = n.val →
    bitAt f 6 0 = false → bitAt f 6 1 = false → bitAt f 6 2 = false →
    (bitAt f 6 3 = true ∨ bitAt f 6 4 = true ∨ bitAt f 6 5 = true) →
    let e := s.store.axisNotices[n]
    let cleared : AxisEntry :=
      ⟨e.referenced && bitAt f 6 3, if bitAt f 6 4 then e.suspect else none, if bitAt f 6 5 then e.faulted else none⟩
    let left : AxisEntry :=
      ⟨e.referenced && !bitAt f 6 3, if bitAt f 6 4 then none else e.suspect, if bitAt f 6 5 then none else e.faulted⟩
    exec .ackNotices s =
      .next (answered f .done
        (bitsByte [false, false, false, cleared.referenced, cleared.suspect.isSome, cleared.faulted.isSome]
          ++ halves (causeCode (cleared.suspect.getD .none)) (causeCode (cleared.faulted.getD .none))
          ++ bitsByte [false, false, false, left.referenced, left.suspect.isSome, left.faulted.isSome])
        (withAxisEntry n left s))

/-! ### Batches -/

/-- OPEN_BATCH opens an empty batch, and is refused with BATCH_OPEN while one is open. DISCARD_BATCH frees every RESERVED slot with
its generation raised, lowers the counts, closes the batch and gives the two numbers; it is refused with NO_BATCH while none is
open. -/
def Obligations.OpenAndDiscardBatchOutcome : Prop :=
  (∀ (s : State) (f : Frame), InProgress s f 12 → batchFlag f = false →
    exec .openBatch s =
      .next
        (if s.manager.batchOpen then answered f .batchOpen [] s
        else answered f .done [] { s with manager := { s.manager with batchOpen := true, staging := [] } })) ∧
  ∀ (s : State) (f : Frame), InProgress s f 14 → batchFlag f = false →
    (s.manager.batchOpen = false → exec .discardBatch s = .next (answered f .noBatch [] s)) ∧
    (s.manager.batchOpen = true →
      ∃ st : Store,
        exec .discardBatch s =
          .next (answered f .done (be8 s.manager.staging.length ++ be16 (reservedSlots s.store))
            (setStore (settle st) { s with manager := { s.manager with batchOpen := false, staging := [] } })) ∧
        (∀ i : SlotNo, st.slots[i] =
          match s.store.slots[i].content with
          | .reserved _ => ⟨s.store.slots[i].gen + 1, .free⟩
          | .free | .live _ => s.store.slots[i]) ∧
        st.lists = s.store.lists ∧
        (∀ n : AxisNo, st.occupancy[n] = s.store.occupancy[n] - reservedCount s.store n) ∧
        st.axisNotices = s.store.axisNotices)

/-- The staged requests: NO_BATCH, then BATCH_FULL, then the request's own checks. STAGED_ADD_TRIP: the first bad field, then FULL, then
QUOTA; otherwise the lowest FREE slot is RESERVED with its generation as it stands, and the entry stands at the tail of the staging
list. STAGED_MODIFY_TRIP, STAGED_RETIRE_TRIP, STAGED_HOLD_TRIP and STAGED_ARM_TRIP: BAD_FIELD for a slot above 383, or for a bad
change entry or value; otherwise one more entry in the staging list and no other change; the store is not consulted. That the
response gives the index, and the handle of an ADD, and no batch state of its own is the model's choice (log entry 13), and so is
the order in which a staged MODIFY-TRIP is checked: its target handle, then its change entries, then its values (log entry 24). -/
def Obligations.StagedRequestsJoinTheStagingList : Prop :=
  (∀ (s : State) (f : Frame), InProgress s f 1 → batchFlag f = true →
    (s.manager.batchOpen = false → exec .stagedAddTrip s = .next (answered f .noBatch [] s)) ∧
    (s.manager.batchOpen = true → 24 ≤ s.manager.staging.length →
      exec .stagedAddTrip s = .next (answered f .batchFull [] s)) ∧
    (s.manager.batchOpen = true → s.manager.staging.length < 24 →
      (∀ e, readTripFields (fun n => s.axes[n].config) f = .error e →
        exec .stagedAddTrip s = .next (answered f e.code e.items s)) ∧
      ∀ fields, readTripFields (fun n => s.axes[n].config) f = .ok fields →
        ((∀ i : SlotNo, s.store.slots[i].content ≠ .free) →
          exec .stagedAddTrip s = .next (answered f .full [] s)) ∧
        ∀ i : SlotNo, IsLowestFree s.store i →
          let h := handleOf s.store i
          (s.axes[fields.axis].config.quota ≠ 0 → s.axes[fields.axis].config.quota ≤ s.store.occupancy[fields.axis] →
            exec .stagedAddTrip s = .next (answered f .quota [] s)) ∧
          (s.axes[fields.axis].config.quota = 0 ∨ s.store.occupancy[fields.axis] < s.axes[fields.axis].config.quota →
            exec .stagedAddTrip s =
              .next (answered f .staged (be8 s.manager.staging.length ++ handleBytes h)
                { s with
                  store := { s.store with
                    slots := put s.store.slots i ⟨h.gen, .reserved { fields with }⟩
                    occupancy := put s.store.occupancy fields.axis (s.store.occupancy[fields.axis] + 1) }
                  manager := { s.manager with
                    staging := s.manager.staging ++ [⟨.add fields h, byteAt f 1⟩] } })))) ∧
  ∀ (s : State) (f : Frame) (c : Instr) (code : Nat),
    (c, code) ∈ [(Instr.stagedModifyTrip, 2), (.stagedRetireTrip, 3), (.stagedHoldTrip, 4), (.stagedArmTrip, 5)] →
    InProgress s f code → batchFlag f = true →
    (s.manager.batchOpen = false → exec c s = .next (answered f .noBatch [] s)) ∧
    (s.manager.batchOpen = true → 24 ≤ s.manager.staging.length → exec c s = .next (answered f .batchFull [] s)) ∧
    (s.manager.batchOpen = true → s.manager.staging.length < 24 → 384 ≤ u16 f 3 / 64 →
      exec c s = .next (answered f .badField (be8 3 ++ be8 7) s)) ∧
    ∀ h, handleAt f 3 = some h → s.manager.batchOpen = true → s.manager.staging.length < 24 →
      let staged := fun op : StagedOp =>
        answered f .staged (be8 s.manager.staging.length)
          { s with manager := { s.manager with staging := s.manager.staging ++ [⟨op, byteAt f 1⟩] } }
      (c = .stagedRetireTrip → exec c s = .next (staged (.retire h))) ∧
      (c = .stagedHoldTrip → exec c s = .next (staged (.hold h))) ∧
      (c = .stagedArmTrip → exec c s = .next (staged (.arm h))) ∧
      (c = .stagedModifyTrip →
        (∀ e, checkEntries f = .error e → exec c s = .next (answered f e.code e.items s)) ∧
        (checkEntries f = .ok () →
          (∀ e, readChanges none f = .error e → exec c s = .next (answered f e.code e.items s)) ∧
          ∀ ch, readChanges none f = .ok ch → exec c s = .next (staged (.modify h ch))))

/-- COMMIT_BATCH: NO_BATCH without a batch. A staging list whose entries all pass, each judged against the store as the earlier ones
leave it, is applied whole, and then the records whose counts were lowered are checked for release. At the first entry that
fails no entry is applied: the RESERVED slots are freed and the response names the entry. Either way the batch is closed. -/
def Obligations.CommitBatchAppliesAllOrNothing : Prop :=
  ∀ (s : State) (f : Frame), InProgress s f 13 → batchFlag f = false →
    let cfg := fun n : AxisNo => s.axes[n].config
    let closed : State := { s with manager := { s.manager with batchOpen := false, staging := [] } }
    (s.manager.batchOpen = false → exec .commitBatch s = .next (answered f .noBatch [] s)) ∧
    (s.manager.batchOpen = true → ∀ st lowered, commitEntries cfg 0 s.manager.staging s.store [] = .passed st lowered →
      exec .commitBatch s =
        .next (answered f .done (be8 s.manager.staging.length)
          (setStore (settle (lowered.foldl (fun x h => releaseCheck h x) st)) closed))) ∧
    (s.manager.batchOpen = true → ∀ (before : List StagedEntry) (e : StagedEntry) (after : List StagedEntry) (st : Store)
      (lowered : List Handle) (why : Refused),
      s.manager.staging = before ++ e :: after → commitEntries cfg 0 before s.store [] = .passed st lowered →
      commitEntry cfg e.op st = .error why →
      ∃ left : Store,
        exec .commitBatch s =
          .next (answered f .commitFailed
            (be8 before.length ++ [e.tag] ++ be8 (completionValue why.code)
              ++ (if why.code = .badField then why.items else []))
            (setStore (settle left) closed)) ∧
        (∀ i : SlotNo, left.slots[i] =
          match s.store.slots[i].content with
          | .reserved _ => ⟨s.store.slots[i].gen + 1, .free⟩
          | .free | .live _ => s.store.slots[i]) ∧
        left.lists = s.store.lists ∧
        (∀ n : AxisNo, left.occupancy[n] = s.store.occupancy[n] - reservedCount s.store n) ∧
        left.axisNotices = s.store.axisNotices)

/-- The entries of a batch. Each is judged against the store as the earlier ones leave it. A committed RETIRE, HOLD, ARM or MODIFY does at
the store what its direct request does, but for the release check, which waits for the end of the commit; each is refused by the
state of its target, as it then stands. A committed ADD is refused with BAD_LINK when its successor is not LIVE, its own reserved handle
among them; otherwise its slot becomes LIVE with its generation unchanged, the record is placed and its successor is counted. Which
byte names a failing field is read from the layout (log entry 10). -/
def Obligations.CommittedEntryActsLikeItsDirectRequest : Prop :=
  (∀ (cfg : AxisNo → AxisConfig) (k : Nat) (e : StagedEntry) (rest : List StagedEntry) (st : Store) (lowered : List Handle),
    commitEntries cfg k [] st lowered = .passed st lowered ∧
    (∀ why, commitEntry cfg e.op st = .error why → commitEntries cfg k (e :: rest) st lowered = .failed k e.tag why) ∧
    ∀ st' o, commitEntry cfg e.op st = .ok (st', o) →
      commitEntries cfg k (e :: rest) st lowered = commitEntries cfg (k + 1) rest st' (lowered ++ o.toList)) ∧
  (∀ (s t : State) (f : Frame) (h : Handle), batchFlag f = false → handleAt f 3 = some h →
    t.port.responseQueue.getLast?.map (·.completion) = some .done →
    let cfg := fun n : AxisNo => s.axes[n].config
    (InProgress s f 3 → exec .retireTrip s = .next t →
      ∃ st o, commitEntry cfg (.retire h) s.store = .ok (st, o) ∧ t.store = settle (releaseCheckOf o st)) ∧
    (InProgress s f 4 → exec .holdTrip s = .next t →
      ∃ st, commitEntry cfg (.hold h) s.store = .ok (st, none) ∧ t.store = settle st) ∧
    (InProgress s f 5 → exec .armTrip s = .next t →
      ∃ st, commitEntry cfg (.arm h) s.store = .ok (st, none) ∧ t.store = settle st) ∧
    (InProgress s f 2 → exec .modifyTrip s = .next t →
      ∃ ch st o, readChanges none f = .ok ch ∧ commitEntry cfg (.modify h ch) s.store = .ok (st, o) ∧
        t.store = settle (releaseCheckOf o st))) ∧
  (∀ (cfg : AxisNo → AxisConfig) (st : Store) (h : Handle) (ch : Changes),
    (∀ op ∈ [StagedOp.modify h ch, .retire h, .hold h, .arm h],
      ((st.slots[h.slot].content = .free ∨ st.slots[h.slot].gen ≠ h.gen) → commitEntry cfg op st = .error (refuse .stale)) ∧
      (st.slots[h.slot].gen = h.gen → (∃ r, st.slots[h.slot].content = .reserved r) →
        commitEntry cfg op st = .error (refuse .notLive))) ∧
    ∀ r, liveAs st h = some r →
      (r.predCount ≠ 0 → commitEntry cfg (.retire h) st = .error (refuse .inUse)) ∧
      (r.state = .spent →
        ∀ op ∈ [StagedOp.modify h ch, .hold h, .arm h], commitEntry cfg op st = .error (refuse .wrongState)) ∧
      (r.state ≠ .spent →
        let sp := (cfg r.axis).span
        let badPosition := ∃ p, ch.position = some p ∧ inRange sp p = false
        let fitsWidth := widthFits (ch.action.getD r.action) (applyChange ch.width r.width) = true
        let badPitch := ∃ v, ch.pitch = .set v ∧ (v = 0 ∨ (match sp with
          | .linear => 1073741824
          | .rotary m => m - 1) < v)
        let badLink := ch.successor = .set h ∨ ∃ k, ch.successor = .set k ∧ liveAs st k = none
        (badPosition → commitEntry cfg (.modify h ch) st = .error (badField 10 7)) ∧
        (¬ badPosition → ¬ fitsWidth → commitEntry cfg (.modify h ch) st = .error (badField 16 7)) ∧
        (¬ badPosition → fitsWidth → badPitch → commitEntry cfg (.modify h ch) st = .error (badField 18 7)) ∧
        (¬ badPosition → fitsWidth → ¬ badPitch → badLink →
          commitEntry cfg (.modify h ch) st = .error (refuse .badLink)))) ∧
  ∀ (cfg : AxisNo → AxisConfig) (st : Store) (fields : TripFields) (h : Handle) (r : TripRecord),
    st.slots[h.slot] = ⟨h.gen, .reserved r⟩ →
    (badSuccessor st r.successor → commitEntry cfg (.add fields h) st = .error (refuse .badLink)) ∧
    (r.successor = some h → badSuccessor st r.successor) ∧
    (¬ badSuccessor st r.successor →
      ∃ st' : Store, commitEntry cfg (.add fields h) st = .ok (st', none) ∧
        st'.slots[h.slot] = ⟨h.gen, .live r⟩ ∧
        (∀ j : SlotNo, j ≠ h.slot → st'.slots[j] = relinked none r.successor st j) ∧
        st'.lists = put st.lists r.axis (placeIn (positionOf st') h.slot r.position st.lists[r.axis]) ∧
        st'.occupancy = st.occupancy ∧
        st'.axisNotices = st.axisNotices)

/-! ### Axes -/

/-- CONFIG_AXIS: WRONG_STATE out of PARKED, then the first field of the frame out of its range (that the first one is named is the model's
choice, log entry 23); then check 4 names source or method and check 5 reference value or offset, whichever the free value gives
(log entry 9); then WRONG_STATE for a changed span with records, then QUOTA; otherwise the whole record is replaced and nothing
else. The places of the fields are read from the general layout (log entry 11). -/
def Obligations.ConfigAxisOutcome : Prop :=
  (∀ f : Frame,
    let failing : List (Bool × Nat × Nat) :=
      [(decide (3 ≤ highHalf f 4), 4, 7), (decide (2 ≤ lowHalf f 4), 4, 3), (decide (2 ≤ u8 f 5), 5, 7),
        (decide (u8 f 5 = 1 ∧ (u32 f 6 < 16 ∨ 1073741824 < u32 f 6)), 6, 7), (decide (4 ≤ u8 f 10), 10, 7),
        (decide (384 < u16 f 21), 21, 7), (decide (u8 f 23 < 8 ∨ 32 < u8 f 23), 23, 7),
        (decide (u16 f 24 < 50 ∨ 5000 < u16 f 24), 24, 7), (decide (u8 f 26 < 1 ∨ 15 < u8 f 26), 26, 7)]
    match failing.find? (·.1) with
    | some (_, byte, bit) => readConfig f = .error (badField byte bit)
    | none =>
      ∃ c, readConfig f = .ok c ∧ sourceOf (highHalf f 4) = some c.source ∧ c.countInvert = decide (lowHalf f 4 = 1) ∧
        c.span = (if u8 f 5 = 0 then .linear else .rotary (u32 f 6)) ∧ methodOf (u8 f 10) = some c.method ∧
        c.refValue = i32 f 11 ∧ c.offset = i32 f 15 ∧ c.slewGuard = u16 f 19 ∧ c.quota = u16 f 21 ∧
        c.wordWidth = u8 f 23 ∧ c.samplePeriod = u16 f 24 ∧ c.failureLimit = u8 f 26) ∧
  ∀ (s : State) (f : Frame) (n : AxisNo), InProgress s f 15 → batchFlag f = false → u8 f 3 = n.val →
    (s.axes[n].state ≠ .parked → exec .configAxis s = .next (answered f .wrongState [] s)) ∧
    (∀ e, s.axes[n].state = .parked → readConfig f = .error e →
      exec .configAxis s = .next (answered f e.code e.items s)) ∧
    ∀ c, s.axes[n].state = .parked → readConfig f = .ok c →
      let wrongMethod := (c.method = .index ∧ c.source ≠ .quad) ∨ (c.method = .absolute ∧ c.source ≠ .link)
      let wrongSum := c.span = .linear ∧ (c.method = .none ∨ c.method = .index) ∧
        (c.refValue + c.offset < -2147483648 ∨ 2147483647 < c.refValue + c.offset)
      let spanHeld := c.span ≠ s.axes[n].config.span ∧ (s.store.lists[n] ≠ [] ∨ reservedCount s.store n ≠ 0)
      (wrongMethod → ∃ byte, (byte = 4 ∨ byte = 10) ∧
        exec .configAxis s = .next (answered f .badField (be8 byte ++ be8 7) s)) ∧
      (¬ wrongMethod → wrongSum → ∃ byte, (byte = 11 ∨ byte = 15) ∧
        exec .configAxis s = .next (answered f .badField (be8 byte ++ be8 7) s)) ∧
      (¬ wrongMethod → ¬ wrongSum → spanHeld → exec .configAxis s = .next (answered f .wrongState [] s)) ∧
      (¬ wrongMethod → ¬ wrongSum → ¬ spanHeld → c.quota ≠ 0 → c.quota < s.store.occupancy[n] →
        exec .configAxis s = .next (answered f .quota [] s)) ∧
      (¬ wrongMethod → ¬ wrongSum → ¬ spanHeld → (c.quota = 0 ∨ s.store.occupancy[n] ≤ c.quota) →
        exec .configAxis s = .next (answered f .done [] (setAxis n { s.axes[n] with config := c } s)))

/-- UNPARK_AXIS: WRONG_STATE out of PARKED; otherwise the front end of the source starts, WARN is cleared, and the method decides:
NONE references at R + O, the others give UNREFERENCED at position 0. -/
def Obligations.UnparkAxisOutcome : Prop :=
  ∀ (s : State) (f : Frame) (n : AxisNo), InProgress s f 16 → batchFlag f = false → u8 f 3 = n.val →
    let a := s.axes[n]
    let c := a.config
    let started : Axis :=
      match c.source with
      | .quad => { a with warn := false, decoderRunning := true, lastPair := (a.xa, a.xb) }
      | .link => { a with warn := false, failures := 0, sampleNext := some (s.now + 10 * c.samplePeriod) }
      | .host => { a with warn := false }
    (a.state ≠ .parked → exec .unparkAxis s = .next (answered f .wrongState [] s)) ∧
    (a.state = .parked → c.method = .none →
      exec .unparkAxis s =
        .next (answered f .done (be8 2 ++ be32 (reduce c.span (c.refValue + c.offset)))
          (withAxisEntry n { s.store.axisNotices[n] with referenced := true }
            (setAxis n
              { started with state := .tracking, seeking := false, position := reduce c.span (c.refValue + c.offset) }
              s)))) ∧
    (a.state = .parked → c.method ≠ .none →
      exec .unparkAxis s =
        .next (answered f .done (be8 1 ++ be32 0)
          (setAxis n { started with state := .unreferenced, seeking := false, position := 0 } s)))

/-- ESTABLISH_AXIS sets SEEKING or references at once by the method; RESUME_AXIS takes SUSPECT to TRACKING; PARK_AXIS parks from any
state and stops the front end. In another state the first two are refused with WRONG_STATE. That a sum out of
range names the value, at byte 4, is read from the layout (log entry 10). -/
def Obligations.EstablishResumeAndParkAxisOutcome : Prop :=
  ∀ (s : State) (f : Frame) (n : AxisNo) (code : Nat), InProgress s f code → batchFlag f = false → u8 f 3 = n.val →
    let a := s.axes[n]
    let v := i32 f 4 + a.config.offset
    (code = 17 → a.state ≠ .unreferenced → exec .establishAxis s = .next (answered f .wrongState [] s)) ∧
    (code = 17 → a.state = .unreferenced → (a.config.method = .index ∨ a.config.method = .absolute) →
      exec .establishAxis s =
        .next (answered f .accepted (be8 1 ++ be32 a.position) (setAxis n { a with seeking := true } s))) ∧
    (code = 17 → a.state = .unreferenced → a.config.method = .host → a.config.span = .linear →
      (v < -2147483648 ∨ 2147483647 < v) → exec .establishAxis s = .next (answered f .badField (be8 4 ++ be8 7) s)) ∧
    (code = 17 → a.state = .unreferenced → a.config.method = .host →
      (a.config.span = .linear → -2147483648 ≤ v ∧ v ≤ 2147483647) →
      exec .establishAxis s =
        .next (answered f .done (be8 2 ++ be32 (reduce a.config.span v))
          (withAxisEntry n { s.store.axisNotices[n] with referenced := true }
            (setAxis n { a with state := .tracking, seeking := false, position := reduce a.config.span v } s)))) ∧
    (code = 18 → a.state ≠ .suspect → exec .resumeAxis s = .next (answered f .wrongState [] s)) ∧
    (code = 18 → a.state = .suspect →
      exec .resumeAxis s =
        .next (answered f .done (be8 2 ++ be32 a.position) (setAxis n { a with state := .tracking } s))) ∧
    (code = 19 → a.state = .parked → exec .parkAxis s = .next (answered f .done (be8 0 ++ be32 a.position) s)) ∧
    (code = 19 → a.state ≠ .parked →
      exec .parkAxis s =
        .next (answered f .done (be8 0 ++ be32 a.position)
          (setAxis n
            { a with
              state := .parked
              seeking := false
              decoderRunning := false
              sampleNext := none
              poll := none } s)))

/-- POST_POSITION: WRONG_SOURCE, then WRONG_STATE in PARKED, then BAD_FIELD for a rotary value out of range; otherwise the sample
moves the position in UNREFERENCED and SUSPECT, is one position update in TRACKING when the slew guard admits the travel, and
makes the axis SUSPECT with cause SLEW when it does not. -/
def Obligations.PostPositionOutcome : Prop :=
  ∀ (s : State) (f : Frame) (n : AxisNo), InProgress s f 21 → batchFlag f = false → u8 f 3 = n.val →
    let a := s.axes[n]
    let v := i32 f 4
    (a.config.source ≠ .host → exec .postPosition s = .next (answered f .wrongSource [] s)) ∧
    (a.config.source = .host → a.state = .parked → exec .postPosition s = .next (answered f .wrongState [] s)) ∧
    (a.config.source = .host → a.state ≠ .parked → ∀ m, a.config.span = .rotary m → (v < 0 ∨ (m : Int) ≤ v) →
      exec .postPosition s = .next (answered f .badField (be8 4 ++ be8 7) s)) ∧
    (a.config.source = .host → (∀ m, a.config.span = .rotary m → 0 ≤ v ∧ v < m) →
      (a.state = .unreferenced ∨ a.state = .suspect →
        exec .postPosition s =
          .next (answered f .done (be8 (axisStateCode a.state) ++ be32 v) (setAxis n { a with position := v } s))) ∧
      (a.state = .tracking → (a.config.slewGuard = 0 ∨ (signedTravel a.config.span a.position v).natAbs ≤ a.config.slewGuard) →
        exec .postPosition s = .next (answered f .done (be8 2 ++ be32 v) (positionUpdate n v s))) ∧
      (a.state = .tracking → a.config.slewGuard ≠ 0 → a.config.slewGuard < (signedTravel a.config.span a.position v).natAbs →
        exec .postPosition s =
          .next (answered f .done (be8 3 ++ be32 v)
            (withAxisEntry n
              { s.store.axisNotices[n] with suspect := some (s.store.axisNotices[n].suspect.getD .slew) }
              (setAxis n { a with state := .suspect, lastCause := .slew, position := v } s)))))

/-- QUAD_EDGE while the decoder runs: along the cycle 00, 10, 11, 01 a change is a step forward, against it a step backward, and
of both pins a decode error; count invert turns the step, and the axis state decides what it does. While the decoder does not run,
as on a LINK or HOST axis in every state, the pins alone take their levels. -/
def Obligations.QuadEdgeResolvesOneChange : Prop :=
  (∀ (s : State) (n : AxisNo) (a b : Level), s.axes[n].decoderRunning = false →
    exec (.quadEdge n a b) s = .next (setAxis n { s.axes[n] with xa := a, xb := b } s)) ∧
  ∀ (s : State) (n : AxisNo) (a b : Level), s.resetLow = false → s.axes[n].decoderRunning = true →
    let x := s.axes[n]
    let seen : State := setAxis n { x with xa := a, xb := b, lastPair := (a, b) } s
    let along := fun p : Level × Level => ((if p.2 = .low then Level.high else .low), p.1)
    let sp := x.config.span
    let faulted := fun c : Cause =>
      withAxisEntry n { s.store.axisNotices[n] with faulted := some (s.store.axisNotices[n].faulted.getD c) }
        (setAxis n { seen.axes[n] with state := .faulted, seeking := false, lastCause := c } seen)
    let stepTo := fun p : Int =>
      if x.state = .parked ∨ x.state = .faulted then seen
      else if sp = .linear ∧ (p < -2147483648 ∨ 2147483647 < p) then faulted .range
      else if x.state = .tracking then positionUpdate n (reduce sp p) seen
      else setAxis n { seen.axes[n] with position := reduce sp p } seen
    ((a, b) = x.lastPair → exec (.quadEdge n a b) s = .next seen) ∧
    ((a, b) = along x.lastPair →
      exec (.quadEdge n a b) s = .next (stepTo (if x.config.countInvert then x.position - 1 else x.position + 1))) ∧
    (x.lastPair = along (a, b) →
      exec (.quadEdge n a b) s = .next (stepTo (if x.config.countInvert then x.position + 1 else x.position - 1))) ∧
    (a ≠ x.lastPair.1 → b ≠ x.lastPair.2 →
      exec (.quadEdge n a b) s =
        .next
          (if x.state = .tracking then
            withAxisEntry n
              { s.store.axisNotices[n] with suspect := some (s.store.axisNotices[n].suspect.getD .decode) }
              (setAxis n { seen.axes[n] with state := .suspect, lastCause := .decode } seen)
          else seen))

/-- INDEX_EVENT while the decoder runs references an UNREFERENCED axis that is SEEKING with method INDEX at R + O, and is ignored
otherwise; while the decoder does not run, as on a LINK or HOST axis in every state, it changes nothing. -/
def Obligations.IndexEventReferences : Prop :=
  (∀ (s : State) (n : AxisNo), s.axes[n].decoderRunning = false → exec (.indexEvent n) s = .next s) ∧
  ∀ (s : State) (n : AxisNo), s.resetLow = false → s.axes[n].decoderRunning = true →
    let a := s.axes[n]
    let wanted := a.state = .unreferenced ∧ a.seeking = true ∧ a.config.method = .index
    (wanted →
      exec (.indexEvent n) s =
        .next (withAxisEntry n { s.store.axisNotices[n] with referenced := true }
          (setAxis n
            { a with
              state := .tracking
              seeking := false
              position := reduce a.config.span (a.config.refValue + a.config.offset) } s))) ∧
    (¬ wanted → exec (.indexEvent n) s = .next s)

/-- SAMPLE_TIMER_EXPIRY of a running timer: the next expiry is one sample period later, and a poll starts in UNREFERENCED, TRACKING
and SUSPECT and none in FAULTED. That time passes to the due moment is the model's choice (log entry 3). -/
def Obligations.SampleTimerExpiryStartsAPoll : Prop :=
  ∀ (s : State) (n : AxisNo) (due : Nat), s.resetLow = false → s.axes[n].config.source = .link →
    s.axes[n].sampleNext = some due → s.axes[n].poll = none →
    let a := s.axes[n]
    exec (.sampleTimerExpiry n) s =
      .next (setAxis n
        { a with
          sampleNext := some (due + 10 * a.config.samplePeriod)
          poll := if a.state = .unreferenced ∨ a.state = .tracking ∨ a.state = .suspect then some [] else none }
        { s with now := max s.now due })

/-- A poll ends BAD by POLL_TIMEOUT, by 120 zeros, by a second sync bit of 1 or by a failed check, and ends with ALARM by the ALARM
bit: BAD raises the failure count, and at the failure limit LINK_LOST sends the axis to FAULTED with cause LINK; ALARM sends it
to FAULTED with cause ENCODER. -/
def Obligations.PollEndsBadOrAlarm : Prop :=
  ∀ (s : State) (n : AxisNo) (bits reply : List Bool), s.resetLow = false → s.axes[n].poll = some bits →
    (s.axes[n].state = .unreferenced ∨ s.axes[n].state = .tracking ∨ s.axes[n].state = .suspect) →
    let a := s.axes[n]
    let w := a.config.wordWidth
    let faulted := fun (c : Cause) (k : Nat) =>
      withAxisEntry n { s.store.axisNotices[n] with faulted := some (s.store.axisNotices[n].faulted.getD c) }
        (setAxis n { a with state := .faulted, seeking := false, lastCause := c, poll := none, failures := k } s)
    let bad :=
      if a.failures + 1 = a.config.failureLimit then faulted .link 0
      else setAxis n { a with poll := none, failures := a.failures + 1 } s
    ((∀ b ∈ bits, b = false) → exec (.pollTimeout n) s = .next bad) ∧
    (bits ++ reply = List.replicate 120 false → exec (.pollEnd n reply) s = .next bad) ∧
    ∀ zeros, zeros < 120 →
      (bits ++ reply = List.replicate zeros false ++ [true, true] → exec (.pollEnd n reply) s = .next bad) ∧
      ∀ word alarm warn check, word.length = w → check.length = 8 →
        bits ++ reply = List.replicate zeros false ++ [true, false] ++ word ++ [alarm, warn] ++ check →
        (check ≠ byteBits (crc8 (word ++ [alarm, warn])) → exec (.pollEnd n reply) s = .next bad) ∧
        (check = byteBits (crc8 (word ++ [alarm, warn])) → alarm = true →
          exec (.pollEnd n reply) s = .next (faulted .encoder a.failures))

/-- POLL_END with a GOOD outcome: the failure count becomes 0, and raw plus O is the reference position of a SEEKING ABSOLUTE axis, or
the new position otherwise, with WARN copied; out of the linear range it faults the axis with cause RANGE and leaves WARN. -/
def Obligations.PollEndsGood : Prop :=
  ∀ (s : State) (n : AxisNo) (bits reply : List Bool) (zeros : Nat) (word : List Bool) (warn : Bool),
    s.resetLow = false → s.axes[n].poll = some bits →
    (s.axes[n].state = .unreferenced ∨ s.axes[n].state = .tracking ∨ s.axes[n].state = .suspect) →
    zeros < 120 → word.length = s.axes[n].config.wordWidth →
    bits ++ reply =
      List.replicate zeros false ++ [true, false] ++ word ++ [false, warn] ++ byteBits (crc8 (word ++ [false, warn])) →
    let a := s.axes[n]
    let sp := a.config.span
    let exact : Int := bitsToNat word + a.config.offset
    let p := reduce sp exact
    let outOfRange := sp = .linear ∧ (exact < -2147483648 ∨ 2147483647 < exact)
    let referenced := a.state = .unreferenced ∧ a.seeking = true ∧ a.config.method = .absolute
    let admitted := a.config.slewGuard = 0 ∨ (signedTravel sp a.position p).natAbs ≤ a.config.slewGuard
    let ended : Axis := { a with poll := none, failures := 0 }
    let sampled : Axis := { ended with warn := warn }
    (outOfRange →
      exec (.pollEnd n reply) s =
        .next (withAxisEntry n
          { s.store.axisNotices[n] with faulted := some (s.store.axisNotices[n].faulted.getD .range) }
          (setAxis n { ended with state := .faulted, seeking := false, lastCause := .range } s))) ∧
    (¬ outOfRange → referenced →
      exec (.pollEnd n reply) s =
        .next (withAxisEntry n { s.store.axisNotices[n] with referenced := true }
          (setAxis n { sampled with state := .tracking, seeking := false, position := p } s))) ∧
    (¬ outOfRange → ¬ referenced → a.state ≠ .tracking →
      exec (.pollEnd n reply) s = .next (setAxis n { sampled with position := p } s)) ∧
    (¬ outOfRange → a.state = .tracking → admitted →
      exec (.pollEnd n reply) s = .next (positionUpdate n p (setAxis n sampled s))) ∧
    (¬ outOfRange → a.state = .tracking → ¬ admitted →
      exec (.pollEnd n reply) s =
        .next (withAxisEntry n
          { s.store.axisNotices[n] with suspect := some (s.store.axisNotices[n].suspect.getD .slew) }
          (setAxis n { sampled with state := .suspect, lastCause := .slew, position := p } s)))

/-- Every source event of a PARKED or FAULTED axis is ignored by its tracker: the store, the lines, the axis state, the position,
SEEKING, WARN and the last cause stay as they are, and so does every other axis. -/
def Obligations.ParkedOrFaultedAxisIgnoresItsSource : Prop :=
  ∀ (s t : State) (n : AxisNo) (c : Instr), (s.axes[n].state = .parked ∨ s.axes[n].state = .faulted) →
    ((∃ a b, c = .quadEdge n a b) ∨ c = .indexEvent n ∨ c = .sampleTimerExpiry n ∨ c = .pollTimeout n ∨
      ∃ reply, c = .pollEnd n reply) →
    exec c s = .next t →
    t = { s with axes := t.axes, now := t.now } ∧
    (∀ k : AxisNo, k ≠ n → t.axes[k] = s.axes[k]) ∧
    t.axes[n].state = s.axes[n].state ∧ t.axes[n].position = s.axes[n].position ∧
    t.axes[n].seeking = s.axes[n].seeking ∧ t.axes[n].warn = s.axes[n].warn ∧
    t.axes[n].lastCause = s.axes[n].lastCause ∧ t.axes[n].config = s.axes[n].config

/-! ### Travel, walks and firings -/

/-- The signed travel of a rotary update is the shortest way: it differs from the plain difference by whole turns, lies above minus
half the modulus and at most at half of it, is RISING at exactly half a turn, and is 0 exactly when the ends are equal, and then
nothing is walked. The slew guard admits a travel by this distance. -/
def Obligations.RotaryTravelIsTheShortestWay : Prop :=
  ∀ (m : Nat) (p p' : Int), 16 ≤ m → 0 ≤ p → p < m → 0 ≤ p' → p' < m →
    let d := signedTravel (.rotary m) p p'
    (∃ turns : Int, d = p' - p + turns * m) ∧
    -(m : Int) < 2 * d ∧ 2 * d ≤ m ∧
    (d = 0 ↔ p' = p) ∧
    (travelOf (.rotary m) p p' = some .rising ↔ 0 < d) ∧
    (travelOf (.rotary m) p p' = some .falling ↔ d < 0) ∧
    (2 * ((p' - p) % m) = m → 2 * d = m ∧ travelOf (.rotary m) p p' = some .rising) ∧
    (p' = p → travelOf (.rotary m) p p' = none ∧ ∀ (n : AxisNo) (s : State), walk n (.rotary m) p p' s = s) ∧
    ∀ c : AxisConfig, c.span = .rotary m →
      (guardAdmits c p p' = true ↔ c.slewGuard = 0 ∨ d.natAbs ≤ c.slewGuard)

/-- The crossed interval. Linear: the counts above the lower end, up to and including the upper end, and none without travel.
Rotary: the counts that the travel passes, with the start left out and the end taken in on RISING travel, and the reverse on
FALLING travel; it is in one part, or in the two parts about the wrap, exactly as the ends lie. The remaining
interval at a record holds the counts of the record's part that come after it in the travel, and the parts after. -/
def Obligations.CrossedIntervalHoldsTheCountsPassed : Prop :=
  (∀ (p p' q : Int),
    ((crossed .linear .rising p p').any (inStretch q) = true ↔ p < q ∧ q ≤ p') ∧
    ((crossed .linear .falling p p').any (inStretch q) = true ↔ p' < q ∧ q ≤ p) ∧
    ∀ (n : AxisNo) (s : State), walk n .linear p p s = s) ∧
  (∀ (m : Nat) (p p' q : Int), 16 ≤ m → 0 ≤ p → p < m → 0 ≤ p' → p' < m →
    let distance := (signedTravel (.rotary m) p p').natAbs
    (travelOf (.rotary m) p p' = some .rising →
      ((crossed (.rotary m) .rising p p').any (inStretch q) = true ↔
        ∃ k : Nat, 1 ≤ k ∧ k ≤ distance ∧ q = (p + k) % m) ∧
      (p' < p → crossed (.rotary m) .rising p p' = [⟨p, m - 1⟩, ⟨-1, p'⟩]) ∧
      (p < p' → crossed (.rotary m) .rising p p' = [⟨p, p'⟩])) ∧
    (travelOf (.rotary m) p p' = some .falling →
      ((crossed (.rotary m) .falling p p').any (inStretch q) = true ↔ ∃ k : Nat, k < distance ∧ q = (p - k) % m) ∧
      (p < p' → crossed (.rotary m) .falling p p' = [⟨-1, p⟩, ⟨p', m - 1⟩]) ∧
      (p' < p → crossed (.rotary m) .falling p p' = [⟨p', p⟩]))) ∧
  ∀ (p p' x q : Int),
    let left := fun (sp : Span) (d : Travel) => (remaining d x (crossed sp d p p')).any (inStretch q) = true
    (p < x → x ≤ p' → (left .linear .rising ↔ x < q ∧ q ≤ p')) ∧
    (p' < x → x ≤ p → (left .linear .falling ↔ p' < q ∧ q < x)) ∧
    ∀ m : Nat, 0 ≤ p → p < m → 0 ≤ p' → p' < m →
      (p < p' → p < x → x ≤ p' → (left (.rotary m) .rising ↔ x < q ∧ q ≤ p')) ∧
      (p' < p → p < x → x ≤ (m : Int) - 1 →
        (left (.rotary m) .rising ↔ (x < q ∧ q ≤ (m : Int) - 1) ∨ (0 ≤ q ∧ q ≤ p'))) ∧
      (p' < p → 0 ≤ x → x ≤ p' → (left (.rotary m) .rising ↔ x < q ∧ q ≤ p')) ∧
      (p' < p → p' < x → x ≤ p → (left (.rotary m) .falling ↔ p' < q ∧ q < x)) ∧
      (p < p' → 0 ≤ x → x ≤ p →
        (left (.rotary m) .falling ↔ (0 ≤ q ∧ q < x) ∨ (p' < q ∧ q ≤ (m : Int) - 1))) ∧
      (p < p' → p' < x → x ≤ (m : Int) - 1 → (left (.rotary m) .falling ↔ p' < q ∧ q < x))

/-- The records of a walk over one part of the crossed interval are those of the sorted list whose position lies in it, once
each: in ascending position and list order on RISING travel, and the reverse on FALLING travel; a part comes after the parts
before it. -/
def Obligations.WalkMeetsTheIntervalInWalkOrder : Prop :=
  (∀ (st : Store) (n : AxisNo) (d : Travel) (x : Stretch),
    st.lists[n].Nodup → st.lists[n].Pairwise (fun i j => positionOf st i ≤ positionOf st j) →
    let met := metSet st n d [x]
    met.Nodup ∧
    (∀ i, i ∈ met ↔ i ∈ st.lists[n] ∧ x.above < positionOf st i ∧ positionOf st i ≤ x.upTo) ∧
    (d = .rising →
      met.Sublist st.lists[n] ∧ met.Pairwise (fun i j => positionOf st i ≤ positionOf st j)) ∧
    (d = .falling →
      met.Sublist st.lists[n].reverse ∧ met.Pairwise (fun i j => positionOf st j ≤ positionOf st i))) ∧
  ∀ (st : Store) (n : AxisNo) (d : Travel) (first second : List Stretch),
    metSet st n d (first ++ second) = metSet st n d first ++ metSet st n d second

/-- What one firing leaves of its own record, once its successor, if any, is armed: the fire count, last direction and FIRED; a repeats
value counted down; SPENT at 0 or at the end of the linear range, out of its list and checked for release; a record with a pitch
re-placed in the travel's direction, and HELD and OVERTAKEN when it lands in the remaining interval. Nothing else of the store
changes. -/
def Obligations.FiringMovesItsOwnRecord : Prop :=
  ∀ (sp : Span) (d : Travel) (parts : List Stretch) (i : SlotNo) (r : TripRecord) (st : Store),
    liveAt st i = some r → r.state = .armed →
    let armed : Store :=
      match r.successor.bind fun h => (liveAs st h).map fun x => (h, x) with
      | some (h, x) =>
        if x.state = .dormant then
          { st with slots := put st.slots h.slot ⟨h.gen, .live { x with state := .armed }⟩ }
        else st
      | none => st
    let r1 : TripRecord :=
      { r with
        fireCount := min (r.fireCount + 1) 65535
        lastDirection := some d
        pending := { r.pending with fired := r.pending.fired || decide (r.notify = .fire ∨ r.notify = .both) }
        repeats := r.repeats.map (· - 1) }
    let spent : Store :=
      setLive i
        { r1 with
          state := .spent
          pending := { r1.pending with spent := r1.pending.spent || decide (r.notify = .ended ∨ r.notify = .both) } }
        (unlist r.axis i armed)
    (r.repeats = some 1 → fireAtStore sp d parts i r st = releaseCheck (handleOf st i) spent) ∧
    ((r.repeats = none ∨ ∃ k, r.repeats = some (k + 2)) →
      (r.pitch = none → fireAtStore sp d parts i r st = setLive i r1 armed) ∧
      ∀ pitch, r.pitch = some pitch →
        let q := reduce sp (if d = .rising then r.position + pitch else r.position - pitch)
        (inRange sp q = false → fireAtStore sp d parts i r st = releaseCheck (handleOf st i) spent) ∧
        (inRange sp q = true →
          let r2 : TripRecord :=
            if (remaining d r.position parts).any (inStretch q) then
              { r1 with position := q, state := .held, pending := { r1.pending with overtaken := true } }
            else { r1 with position := q }
          let at2 := setLive i r2 (unlist r.axis i armed)
          fireAtStore sp d parts i r st =
            { at2 with lists := put at2.lists r.axis (placeIn (positionOf at2) i q at2.lists[r.axis]) }))

/-- A firing arms its successor: a DORMANT one becomes ARMED and keeps every field but the predecessor count, which only a release
of the fired record lowers, by one; an ARMED, HELD or SPENT one keeps its state. A SPENT one may be freed behind the fired record, when
that one was released and the lowered count leaves it the conditions of a release. -/
def Obligations.FiringArmsItsSuccessor : Prop :=
  ∀ (sp : Span) (d : Travel) (parts : List Stretch) (i : SlotNo) (r : TripRecord) (st : Store) (h : Handle) (x : TripRecord),
    liveAt st i = some r → r.state = .armed → r.successor = some h → h.slot ≠ i → liveAs st h = some x →
    let done := fireAtStore sp d parts i r st
    let released := liveAs done (handleOf st i) = none
    let armed : TripRecord := { x with state := if x.state = .dormant then .armed else x.state }
    (¬ released → liveAs done h = some armed) ∧
    (released → ¬ (x.state = .spent ∧ x.endMode = .release ∧ x.pending = ⟨false, false, false⟩ ∧ x.predCount ≤ 1) →
      liveAs done h = some { armed with predCount := x.predCount - 1 }) ∧
    (released → x.state = .spent → x.endMode = .release → x.pending = ⟨false, false, false⟩ → x.predCount ≤ 1 →
      done.slots[h.slot] = ⟨h.gen + 1, .free⟩)

/-- A position update takes the records of its met set one after another, in walk order. A met record that is ARMED, whose qualifier admits
the travel and whose gate is at its level, fires: one claim, with its action and width, arrives at the driver of its line, and then the
firing acts at the store. Every other met record is passed and changes nothing. A line request that can act on that line may come just
before the claim; then it acts as its own command does, and whether it comes is a free value. That no second request, taken when the
first completes, acts within the walk is the model's choice (log entry 22). When the walk ends the axis position is the new one, and
the attention line follows the notice set; an update that fires no record changes nothing else. -/
def Obligations.UpdateTakesItsRecordsInOrder : Prop :=
  (∀ (sp : Span) (d : Travel) (parts : List Stretch) (s : State) (i : SlotNo),
    (liveAt s.store i = none → meet sp d parts s i = s) ∧
    ∀ r, liveAt s.store i = some r →
      let admitted := ¬ (r.qualifier = .rising ∧ d = .falling) ∧ ¬ (r.qualifier = .falling ∧ d = .rising) ∧
        ∀ g, r.gate = some g → s.gates[g.input] = g.level
      let fired := fun t : State =>
        setStore (fireAtStore sp d parts i r s.store) (claimArrives r.line ⟨r.action, r.width, false⟩ t)
      let chosen : State := { s with choices := s.choices + 1 }
      (r.state ≠ .armed ∨ ¬ admitted → meet sp d parts s i = s) ∧
      (r.state = .armed → admitted →
        ((∀ f, ¬ InProgress s f 22 ∧ ¬ InProgress s f 23 ∧ ¬ InProgress s f 24) → meet sp d parts s i = fired s) ∧
        (∀ f, InProgress s f 22 →
          (u8 f 4 ≠ r.line.val ∨ (∃ e, readDrive f = .error e) ∨ (∃ c ∈ s.lines[r.line].claims, c.fromRequest = true) →
            meet sp d parts s i = fired s) ∧
          ∀ c, readDrive f = .ok (r.line, c) → (∀ k ∈ s.lines[r.line].claims, k.fromRequest = false) →
            meet sp d parts s i =
              fired (if Config.lineRequestFirst s.choices then claimArrives r.line c chosen else chosen)) ∧
        ∀ (f : Frame) (c : Instr) (code : Nat), (c, code) ∈ [(Instr.configLine, 23), (.lineStatus, 24)] → InProgress s f code →
          (u8 f 3 ≠ r.line.val → meet sp d parts s i = fired s) ∧
          (u8 f 3 = r.line.val →
            ((batchFlag f = true ∨ (code = 23 ∧ 2 ≤ u8 f 4)) → meet sp d parts s i = fired s) ∧
            (batchFlag f = false → (code = 23 → u8 f 4 ≤ 1) →
              ∃ t, exec c chosen = .next t ∧
                meet sp d parts s i = fired (if Config.lineRequestFirst s.choices then t else chosen))))) ∧
  (∀ (s : State) (n : AxisNo) (sp : Span) (p p' : Int),
    (travelOf sp p p' = none → walk n sp p p' s = s) ∧
    ∀ d, travelOf sp p p' = some d →
      walk n sp p p' s = (metSet s.store n d (crossed sp d p p')).foldl (meet sp d (crossed sp d p p')) s) ∧
  ∀ (s : State) (n : AxisNo) (p' : Int),
    let t := walk n s.axes[n].config.span s.axes[n].position p' s
    positionUpdate n p' s = setStore (settle t.store) (setAxis n { s.axes[n] with position := p' } t) ∧
    t.axes = s.axes ∧
    ((∀ d, travelOf s.axes[n].config.span s.axes[n].position p' = some d →
        ∀ i ∈ metSet s.store n d (crossed s.axes[n].config.span d s.axes[n].position p'),
          ∀ r, liveAt s.store i = some r →
            r.state ≠ .armed ∨ (r.qualifier = .rising ∧ d = .falling) ∨ (r.qualifier = .falling ∧ d = .rising) ∨
            ∃ g, r.gate = some g ∧ s.gates[g.input] ≠ g.level) →
      positionUpdate n p' s = setStore (settle s.store) (setAxis n { s.axes[n] with position := p' } s))

/-- No record fires on an axis that is not in TRACKING, and no record fires more than once in one update: over any command the
fire count of a record that is LIVE before and after stays as it is, or goes up by one, stopping at 65,535, with its axis in TRACKING before. -/
def Obligations.RecordsFireOnlyInTrackingAndOnce : Prop :=
  ∀ (c : Instr) (s t : State) (i : SlotNo) (r r' : TripRecord), ListsOrdered s.store → exec c s = .next t →
    liveAt s.store i = some r → liveAs t.store (handleOf s.store i) = some r' → r'.fireCount ≠ r.fireCount →
    s.axes[r.axis].state = .tracking ∧ r'.fireCount = min (r.fireCount + 1) 65535 ∧ (r.state = .armed ∨ r.state = .dormant)

/-- The release check of one record. When its handle names no LIVE record that meets the conditions of a release, nothing changes.
Otherwise the freed slots are a chain without repeats: first that record's, and after each record's the slot of its successor, whose count
was at most 1, so that the free before brought it to 0. The chain ends where the last one names no successor that is LIVE and now
meets the conditions; where no other record met them at the start, none meets them at the end. Every record it frees was SPENT with
end mode RELEASE and no pending kind; its slot is FREE with the next generation, and its axis's occupancy count goes down by one. Every other
record keeps all but its predecessor count, which goes down by the freed records that named it; the lists, the axis entries and the
attention line stay. -/
def Obligations.ReleaseFollowsTheChainToItsEnd : Prop :=
  ∀ (st : Store) (h : Handle),
    let done := releaseCheck h st
    let freed := fun (p : TripRecord → Bool) =>
      (List.finRange 384).countP fun i =>
        decide (done.slots[i].gen ≠ st.slots[i].gen) && (match liveAt st i with
          | some r => p r
          | none => false)
    let naming := fun i : SlotNo => freed fun r => decide (r.successor = some (handleOf st i))
    ((∀ r, liveAs st h = some r → releasable r = false) → done = st) ∧
    (∀ r, liveAs st h = some r → releasable r = true →
      ∃ chain : List SlotNo,
        chain.head? = some h.slot ∧ chain.Nodup ∧ (∀ i, i ∈ chain ↔ done.slots[i].gen ≠ st.slots[i].gen) ∧
        (∀ (k : Nat) (i j : SlotNo), chain[k]? = some i → chain[k + 1]? = some j →
          ∃ x y, liveAt st i = some x ∧ x.successor = some (handleOf st j) ∧ liveAt st j = some y ∧ y.predCount ≤ 1) ∧
        ∀ (i : SlotNo) (x : TripRecord) (next : Handle) (y : TripRecord), chain.getLast? = some i → liveAt st i = some x →
          x.successor = some next → liveAs done next = some y → releasable y = false) ∧
    ((∀ (i : SlotNo) (r : TripRecord), liveAt st i = some r → releasable r = true → h = handleOf st i) →
      NoneReleasable done) ∧
    (∀ i : SlotNo,
      (done.slots[i] = ⟨st.slots[i].gen + 1, .free⟩ ∧
        ∃ r, liveAt st i = some r ∧ r.state = .spent ∧ r.endMode = .release ∧ r.pending = ⟨false, false, false⟩ ∧
          r.predCount ≤ naming i) ∨
      done.slots[i] =
        (match st.slots[i].content with
          | .live r => ⟨st.slots[i].gen, .live { r with predCount := r.predCount - naming i }⟩
          | .free | .reserved _ => st.slots[i])) ∧
    (∀ n : AxisNo, done.occupancy[n] = st.occupancy[n] - freed fun r => decide (r.axis = n)) ∧
    done.lists = st.lists ∧ done.axisNotices = st.axisNotices ∧ done.attention = st.attention

/-! ### Trip lines -/

/-- Claims at a driver. Arrival: applied at once behind a complete dwell, else at the tail of the list; a full list of 16 gives its
head at once and sets dwell cut. Application: SET, CLEAR and TOGGLE leave no pulse timer; PULSE makes the line ACTIVE and starts the
timer at its width, whatever ran before; polarity, claim list and dwell cut are not changed, and the dwell starts. An arrival moves the
driver of its line alone, and completes the DRIVE-LINE in progress when it brings that one's claim to its application. That a
due moment is a count of ticks of 0.1 µs is the model's choice (log entry 2); the bytes of the response are those of log entry 12. -/
def Obligations.ClaimsArriveAndActByTheTables : Prop :=
  (∀ (now : Nat) (c : LineClaim) (d : LineDriver),
    (d.claims = [] → (d.dwellStart = none ∨ ∃ t, d.dwellStart = some t ∧ t + 1 ≤ now) →
      arrive now c d = (applyClaim now c d, some c)) ∧
    (∀ t, d.claims = [] → d.dwellStart = some t → now < t + 1 → arrive now c d = ({ d with claims := [c] }, none)) ∧
    (1 ≤ d.claims.length → d.claims.length ≤ 15 →
      arrive now c d = ({ d with claims := d.claims ++ [c] }, none)) ∧
    ∀ head rest, d.claims = head :: rest → d.claims.length = 16 →
      arrive now c d = (applyClaim now head { d with claims := rest ++ [c], dwellCut := true }, some head)) ∧
  (∀ (now : Nat) (d : LineDriver) (w : Option Nat) (req : Bool),
    (applyClaim now ⟨.set, w, req⟩ d = { d with level := .active, pulseEnd := none, dwellStart := some now }) ∧
    (applyClaim now ⟨.clear, w, req⟩ d = { d with level := .inactive, pulseEnd := none, dwellStart := some now }) ∧
    (d.level = .inactive →
      applyClaim now ⟨.toggle, w, req⟩ d = { d with level := .active, pulseEnd := none, dwellStart := some now }) ∧
    (d.level = .active →
      applyClaim now ⟨.toggle, w, req⟩ d = { d with level := .inactive, pulseEnd := none, dwellStart := some now }) ∧
    ∀ width, 1 ≤ width → width ≤ 65535 →
      let d' := applyClaim now ⟨.pulse, some width, req⟩ d
      d' = { d with level := .active, pulseEnd := some (now + 10 * width), dwellStart := some now } ∧
      ∀ later, now ≤ later → later ≤ now + 10 * width →
        pulseLeft later d' = some ((now + 10 * width - later + 9) / 10)) ∧
  ∀ (s : State) (l : LineNo) (c : LineClaim),
    let d := (arrive s.now c s.lines[l]).1
    let applied := (arrive s.now c s.lines[l]).2
    ((∀ f, InProgress s f 22 → u8 f 4 ≠ l.val) → claimArrives l c s = setLine l d s) ∧
    ((∀ x, applied = some x → x.fromRequest = false) → claimArrives l c s = setLine l d s) ∧
    ∀ x f, applied = some x → x.fromRequest = true → InProgress s f 22 → u8 f 4 = l.val →
      claimArrives l c s =
        answered f .done
          (bitsByte [d.pulseEnd.isSome] ++ be8 (logicalCode d.level) ++ be16 ((pulseLeft s.now d).getD 0)
            ++ be8 (if s.inhn = .low then 0 else 1))
          (setLine l d s)

/-- DRIVE_LINE: its checks in order; then its claim arrives at the driver. Behind a complete dwell it is applied at once and the
request completes with what it left; otherwise it waits in the claim list and the request stays in progress. The bytes
of the request and of its response and the numbers of their values are read from the general layout (log entry 12), and so is that
check 3 names the width (log entry 10). -/
def Obligations.DriveLineOutcome : Prop :=
  ∀ (s : State) (f : Frame), InProgress s f 22 → batchFlag f = false →
    (16 ≤ u8 f 4 → exec .driveLine s = .next (answered f .badField (be8 4 ++ be8 7) s)) ∧
    ∀ l : LineNo, u8 f 4 = l.val →
      let d := s.lines[l]
      let width := if bitAt f 3 0 then some (u16 f 6) else none
      (4 ≤ u8 f 5 → exec .driveLine s = .next (answered f .badField (be8 5 ++ be8 7) s)) ∧
      ∀ action, actionOf (u8 f 5) = some action →
        let c : LineClaim := ⟨action, width, true⟩
        let given := width.isSome = true ∧ width ≠ some 0
        (¬ (action = .pulse ∧ given ∨ action ≠ .pulse ∧ width = none) →
          exec .driveLine s = .next (answered f .badField (be8 6 ++ be8 7) s)) ∧
        ((action = .pulse ∧ given ∨ action ≠ .pulse ∧ width = none) → (∀ k ∈ d.claims, k.fromRequest = false) →
          (d.claims = [] → (d.dwellStart = none ∨ ∃ t, d.dwellStart = some t ∧ t + 1 ≤ s.now) →
            let d' := applyClaim s.now c d
            exec .driveLine s =
              .next (answered f .done
                (bitsByte [d'.pulseEnd.isSome] ++ be8 (logicalCode d'.level) ++ be16 (width.getD 0)
                  ++ be8 (if s.inhn = .low then 0 else 1))
                (setLine l d' s))) ∧
          (∀ t, d.claims = [] → d.dwellStart = some t → s.now < t + 1 →
            exec .driveLine s = .next (setLine l { d with claims := [c] } s)) ∧
          (1 ≤ d.claims.length → d.claims.length ≤ 15 →
            exec .driveLine s = .next (setLine l { d with claims := d.claims ++ [c] } s)) ∧
          ∀ head rest, d.claims = head :: rest → d.claims.length = 16 →
            exec .driveLine s =
              .next (setLine l (applyClaim s.now head { d with claims := rest ++ [c], dwellCut := true }) s))

/-- CONFIG_LINE sets the polarity alone; LINE_STATUS reports the driver and clears dwell cut alone. The bytes of both requests and
responses and the numbers of their values are read from the general layout (log entry 12). -/
def Obligations.ConfigLineAndLineStatusOutcome : Prop :=
  ∀ (s : State) (f : Frame) (code : Nat), InProgress s f code → batchFlag f = false →
    let inhibit := if s.inhn = .low then 0 else 1
    (code = 23 → 16 ≤ u8 f 3 → exec .configLine s = .next (answered f .badField (be8 3 ++ be8 7) s)) ∧
    (code = 24 → 16 ≤ u8 f 3 → exec .lineStatus s = .next (answered f .badField (be8 3 ++ be8 7) s)) ∧
    ∀ l : LineNo, u8 f 3 = l.val →
      let d := s.lines[l]
      (code = 23 → 2 ≤ u8 f 4 → exec .configLine s = .next (answered f .badField (be8 4 ++ be8 7) s)) ∧
      (∀ p, code = 23 → polarityOf (u8 f 4) = some p →
        exec .configLine s =
          .next (answered f .done (halves (polarityCode p) (logicalCode d.level) ++ be8 inhibit)
            (setLine l { d with polarity := p } s))) ∧
      (code = 24 →
        exec .lineStatus s =
          .next (answered f .done
            (bitsByte [d.pulseEnd.isSome] ++ halves (logicalCode d.level) (polarityCode d.polarity)
              ++ be16 ((pulseLeft s.now d).getD 0) ++ halves inhibit (levelCode (pinLevel (s.inhn = .low) d))
              ++ be8 d.claims.length ++ flagByte d.dwellCut)
            (setLine l { d with dwellCut := false } s)))

/-- DWELL_END applies the head claim, if any, and answers the DRIVE-LINE whose claim it was; PULSE_EXPIRY makes the line INACTIVE with
no timer. That time passes to the due moment is the model's choice (log entry 3), and the bytes of the DRIVE-LINE response are read from
the general layout (log entry 12). -/
def Obligations.DwellEndAndPulseExpiryOutcome : Prop :=
  ∀ (s : State) (l : LineNo) (t : Nat), s.resetLow = false →
    let d := s.lines[l]
    (d.pulseEnd = some t →
      exec (.pulseExpiry l) s =
        .next (setLine l { d with level := .inactive, pulseEnd := none } { s with now := max s.now t })) ∧
    (d.dwellStart = some t →
      let s' : State := { s with now := max s.now (t + 1) }
      (d.claims = [] → exec (.dwellEnd l) s = .next s') ∧
      ∀ head rest, d.claims = head :: rest →
        let d' := applyClaim s'.now head { d with claims := rest }
        (head.fromRequest = false → exec (.dwellEnd l) s = .next (setLine l d' s')) ∧
        ∀ f, head.fromRequest = true → InProgress s f 22 → u8 f 4 = l.val →
          exec (.dwellEnd l) s =
            .next (answered f .done
              (bitsByte [d'.pulseEnd.isSome] ++ be8 (logicalCode d'.level) ++ be16 ((pulseLeft s'.now d').getD 0)
                ++ be8 (if s.inhn = .low then 0 else 1))
              (setLine l d' s')))

/-- INHIBIT_CHANGE and GATE_CHANGE move their pin alone. Out of reset the trip pins follow polarity, logical level and inhibit; ATNn is low
exactly while the attention line is asserted; XAn of a LINK axis is driven, high without a poll in flight and as the link clock, low
in the first half of each period, with one; XBn carries the bits 1, 0, 1, 0 in the first four periods of a poll and is an input
otherwise; SDO carries the outgoing frame of a transaction, byte 0 first and most significant bit first, and 0 bits past it, and is released
without one. That the levels within a poll or a transaction are given by half period, period and bit, and that a 1 bit is a high
level, is the model's choice (log entry 21), and so is that SDO is released without a transaction while SCSn is low, as it can be after
a reset (log entry 25). -/
def Obligations.InputPinChangesAndOutputPinLevels : Prop :=
  (∀ (s : State) (level : Level), exec (.inhibitChange level) s = .next { s with inhn := level }) ∧
  (∀ (s : State) (g : GateNo) (level : Level), ∃ t, exec (.gateChange g level) s = .next t ∧
    t = { s with gates := t.gates } ∧ t.gates[g] = level ∧ ∀ k : GateNo, k ≠ g → t.gates[k] = s.gates[k]) ∧
  (∀ (s : State) (l : LineNo), s.resetLow = false →
    tripPin s l =
      match s.inhn, s.lines[l].polarity, s.lines[l].level with
      | .high, .highActive, .active => .high
      | .high, .highActive, .inactive => .low
      | .high, .lowActive, .active => .low
      | .high, .lowActive, .inactive => .high
      | .low, .highActive, _ => .low
      | .low, .lowActive, _ => .high) ∧
  (∀ s : State, s.resetLow = false →
    (attentionPin s = .low ↔ s.store.attention = true) ∧ (attentionPin s = .high ↔ s.store.attention = false)) ∧
  (∀ (s : State) (n : AxisNo), s.resetLow = false →
    (s.axes[n].config.source ≠ .link → ∀ k, xaDrive s n k = .released ∧ xbDrive s n k = .released) ∧
    (s.axes[n].config.source = .link → s.axes[n].poll = none →
      ∀ k, xaDrive s n k = .driven .high ∧ xbDrive s n k = .released) ∧
    (s.axes[n].config.source = .link → s.axes[n].poll ≠ none →
      (∀ k, xaDrive s n (2 * k) = .driven .low ∧ xaDrive s n (2 * k + 1) = .driven .high) ∧
      xbDrive s n 0 = .driven .high ∧ xbDrive s n 1 = .driven .low ∧
      xbDrive s n 2 = .driven .high ∧ xbDrive s n 3 = .driven .low ∧
      ∀ k, 4 ≤ k → xbDrive s n k = .released)) ∧
  ∀ s : State,
    (s.port.transaction = none → ∀ k, sdoDrive s k = .released) ∧
    ∀ t, s.port.transaction = some t →
      (∀ (byte : Fin 32) (bit : Fin 8),
        sdoDrive s (8 * byte.val + (7 - bit.val)) =
          .driven (if (byteAt t.outgoing byte.val).getLsbD bit.val then .high else .low)) ∧
      ∀ k, 256 ≤ k → sdoDrive s k = .driven .low

/-! ### Invariants -/

/-- Every invariant below holds after reset. -/
def Obligations.ResetIsSafe : Prop :=
  Safe State.reset

/-- Every step keeps the attention line asserted exactly when the notice set is non-empty. -/
def Obligations.StepKeepsAttention : Prop :=
  ∀ s t : State, AttentionFollows s → step s = .next t → AttentionFollows t

/-- Every step keeps the queues, the staging list and the claim lists within their places. -/
def Obligations.StepKeepsQueuesBounded : Prop :=
  ∀ s t : State, QueuesBounded s → step s = .next t → QueuesBounded t

/-- Every step keeps each occupancy count at the number of LIVE and RESERVED records of its axis. -/
def Obligations.StepKeepsOccupancyCounts : Prop :=
  ∀ s t : State, OccupancyCounts s.store → step s = .next t → OccupancyCounts t.store

/-- Every step keeps every axis, and every line driver, in a legal state. -/
def Obligations.StepKeepsAxesAndLinesLegal : Prop :=
  ∀ s t : State, step s = .next t → (AxesLegal s → AxesLegal t) ∧ (LinesLegal s → LinesLegal t)

/-- Every step keeps every order list complete, without repeats and sorted. -/
def Obligations.StepKeepsListsOrdered : Prop :=
  ∀ s t : State, ListsOrdered s.store → step s = .next t → ListsOrdered t.store

/-- Every step keeps every predecessor count at the number of LIVE records that name the record, every successor LIVE, and no
record naming itself. -/
def Obligations.StepKeepsLinksCounted : Prop :=
  ∀ s t : State, BatchConsistent s → LinksCounted s.store → step s = .next t → LinksCounted t.store

/-- Every step keeps the RESERVED slots and the staged ADD entries in step, and none outside a batch. -/
def Obligations.StepKeepsBatchConsistent : Prop :=
  ∀ s t : State, BatchConsistent s → step s = .next t → BatchConsistent t

/-- Every step frees a SPENT record with end mode RELEASE at the first moment at which it meets the conditions of a release. -/
def Obligations.StepKeepsNoneReleasable : Prop :=
  ∀ s t : State, ListsOrdered s.store → NoneReleasable s.store → step s = .next t → NoneReleasable t.store

end
end

