-- ==== Sys2Proof/Laws/Decisions.lean ====
section
/-! SUPPORT. What each check that the model decides says as a proposition. -/

namespace Sys2Proof.Machine

/-! ### Positions -/

theorem inRange_linear_iff (p : Int) : inRange .linear p = true ↔ -2147483648 ≤ p ∧ p ≤ 2147483647 :=
  decide_eq_true_iff

theorem inRange_rotary_iff (m : Nat) (p : Int) : inRange (.rotary m) p = true ↔ 0 ≤ p ∧ p < m :=
  decide_eq_true_iff

theorem isRangeFault_iff (sp : Span) (p : Int) :
    isRangeFault sp p = true ↔ sp = .linear ∧ (p < -2147483648 ∨ 2147483647 < p) := by
  cases sp with
  | linear =>
    simp only [isRangeFault, Bool.not_eq_true', ← Bool.not_eq_true, inRange_linear_iff, true_and]
    omega
  | rotary m => simp [isRangeFault]

theorem isRangeFault_eq_false_iff (sp : Span) (p : Int) :
    isRangeFault sp p = false ↔ ¬ (sp = .linear ∧ (p < -2147483648 ∨ 2147483647 < p)) := by
  rw [← isRangeFault_iff, Bool.not_eq_true]

theorem inStretch_iff (q : Int) (x : Stretch) : inStretch q x = true ↔ x.above < q ∧ q ≤ x.upTo :=
  decide_eq_true_iff

theorem guardAdmits_iff (c : AxisConfig) (p p' : Int) :
    guardAdmits c p p' = true ↔ c.slewGuard = 0 ∨ (signedTravel c.span p p').natAbs ≤ c.slewGuard := by
  rw [guardAdmits, Bool.or_eq_true, decide_eq_true_iff, beq_iff_eq]
  exact Iff.rfl

theorem acts_iff (x : AxisState) : acts x = true ↔ x = .unreferenced ∨ x = .tracking ∨ x = .suspect := by
  cases x <;> simp [acts]

/-! ### Records -/

theorem releasable_iff (r : TripRecord) :
    releasable r = true ↔ r.state = .spent ∧ r.endMode = .release ∧ noKinds r.pending = true ∧ r.predCount = 0 := by
  simp only [releasable, Bool.and_eq_true, decide_eq_true_eq]
  tauto

theorem noKinds_iff (k : RecordKinds) : noKinds k = true ↔ k = ⟨false, false, false⟩ := by
  rcases k with ⟨_ | _, _ | _, _ | _⟩ <;> simp [noKinds]

theorem fires_iff (gates : Vector Level 4) (d : Travel) (r : TripRecord) :
    fires gates d r = true ↔
      r.state = .armed ∧ qualifies r.qualifier d = true ∧ ∀ g, r.gate = some g → gates[g.input] = g.level := by
  have hg : gateOpen gates r.gate = true ↔ ∀ g, r.gate = some g → gates[g.input] = g.level := by
    cases r.gate <;> simp [gateOpen]
  simp only [fires, Bool.and_eq_true, decide_eq_true_eq, hg, and_assoc]

theorem qualifies_iff (q : Qualifier) (d : Travel) :
    qualifies q d = true ↔ ¬ ((q = .rising ∧ d = .falling) ∨ (q = .falling ∧ d = .rising)) := by
  cases q <;> cases d <;> simp [qualifies]

theorem widthFits_iff (a : Action) (w : Option Nat) :
    widthFits a w = true ↔ (a = .pulse ∧ ∃ k, w = some k ∧ k ≠ 0) ∨ (a ≠ .pulse ∧ w = none) := by
  cases a <;> cases w <;> simp [widthFits]

theorem quotaReached_iff (quota occupancy : Nat) :
    quotaReached quota occupancy = true ↔ quota ≠ 0 ∧ quota ≤ occupancy := by
  simp [quotaReached]

/-! ### Configurations -/

theorem methodFitsSource_iff (c : AxisConfig) :
    methodFitsSource c = true ↔ (c.method = .index → c.source = .quad) ∧ (c.method = .absolute → c.source = .link) := by
  unfold methodFitsSource
  cases c.method <;> cases c.source <;> simp

theorem sumFits_iff (c : AxisConfig) :
    sumFits c = true ↔
      (c.span = .linear → c.method = .none ∨ c.method = .index →
        -2147483648 ≤ c.refValue + c.offset ∧ c.refValue + c.offset ≤ 2147483647) := by
  unfold sumFits
  cases c.span <;> cases c.method <;> simp [inRange_linear_iff]

/-! ### Lines and the port -/

theorem dwellComplete_iff (now : Nat) (d : LineDriver) :
    dwellComplete now d = true ↔ d.dwellStart = none ∨ ∃ t, d.dwellStart = some t ∧ t + 1 ≤ now := by
  unfold dwellComplete
  cases d.dwellStart <;> simp [Config.dwellTicks]

theorem one_le_partsNeeded (f : Frame) : 1 ≤ partsNeeded f := by
  unfold partsNeeded
  split
  · omega
  · omega
  · split <;> omega
  · omega

theorem partsNeeded_le_three (f : Frame) : partsNeeded f ≤ 3 := by
  unfold partsNeeded
  split
  · omega
  · omega
  · split <;> omega
  · omega

theorem roomFor_iff (f : Frame) (p : Port) : roomFor f p = true ↔ p.responseQueue.length + partsNeeded f ≤ 8 := by
  have h := one_le_partsNeeded f
  rw [roomFor, decide_eq_true_iff]
  change partsNeeded f ≤ 8 - p.responseQueue.length ↔ _
  omega

theorem judgeFrame_eq_accepted_iff (clocks : Nat) (full : Bool) (sdi : List Bool) :
    judgeFrame clocks full sdi = .accepted ↔
      clocks = 256 ∧ frameCheckPasses (frameOfBits sdi) = true ∧ u8 (frameOfBits sdi) 0 ≠ 0 ∧ full = false := by
  unfold judgeFrame
  split_ifs <;> simp_all

end Sys2Proof.Machine
end

