-- ==== Sys2Proof/Laws/Vectors.lean ====
section
/-! SUPPORT. What reading an element gives after `put`, `mapAll`, `tabulate` and `fill`. -/

namespace Sys2Proof

variable {α β : Type} {n : Nat}

@[simp] theorem getElem_put (v : Vector α n) (i : Fin n) (x : α) (k : Nat) (hk : k < n) :
    (put v i x)[k] = if i.val = k then x else v[k] := by
  simp [put, Vector.getElem_set]

theorem getElem_put_self (v : Vector α n) (i : Fin n) (x : α) : (put v i x)[i] = x := by
  simp

theorem getElem_put_ne (v : Vector α n) (i j : Fin n) (x : α) (h : j ≠ i) : (put v i x)[j] = v[j] := by
  have : i.val ≠ j.val := fun e => h (Fin.ext e.symm)
  simp [this]

@[simp] theorem put_put (v : Vector α n) (i : Fin n) (x y : α) : put (put v i x) i y = put v i y := by
  ext k hk
  simp only [getElem_put]
  split <;> rfl

@[simp] theorem put_getElem_self (v : Vector α n) (i : Fin n) : put v i v[i] = v := by
  ext k hk
  simp only [getElem_put, Fin.getElem_fin]
  split
  · subst k; rfl
  · rfl

theorem put_comm (v : Vector α n) {i j : Fin n} (x y : α) (h : i ≠ j) :
    put (put v i x) j y = put (put v j y) i x := by
  have hv : i.val ≠ j.val := fun e => h (Fin.ext e)
  ext k hk
  simp only [getElem_put]
  split_ifs <;> first | rfl | omega

@[simp] theorem getElem_mapAll (f : α → β) (v : Vector α n) (k : Nat) (hk : k < n) :
    (mapAll f v)[k] = f v[k] := by
  simp [mapAll]

@[simp] theorem getElem_tabulate (f : Fin n → α) (k : Nat) (hk : k < n) :
    (tabulate f)[k] = f ⟨k, hk⟩ := by
  simp [tabulate]

theorem getElem_fill (d : α) (l : List α) (k : Nat) (hk : k < n) :
    (fill n d l)[k] = if h : k < l.length then l[k] else d := by
  simp only [fill, Vector.getElem_mk, List.getElem_toArray, List.getElem_take]
  split
  next h => simp [List.getElem_append_left h]
  next h => simp [List.getElem_append_right (Nat.le_of_not_lt h)]

@[simp] theorem toList_put (v : Vector α n) (i : Fin n) (x : α) : (put v i x).toList = v.toList.set i.val x := by
  rcases v with ⟨⟨l⟩, h⟩
  rfl

end Sys2Proof
end

