-- ==== Sys2Proof/Laws/State.lean ====
section
/-! SUPPORT. One lemma for each field after each update of State and of the trip store. -/

namespace Sys2Proof.Machine

/-! ### setAxis -/

@[simp] theorem setAxis_now (n : AxisNo) (a : Axis) (s : State) : (setAxis n a s).now = s.now := rfl
@[simp] theorem setAxis_resetLow (n : AxisNo) (a : Axis) (s : State) : (setAxis n a s).resetLow = s.resetLow := rfl
@[simp] theorem setAxis_scsn (n : AxisNo) (a : Axis) (s : State) : (setAxis n a s).scsn = s.scsn := rfl
@[simp] theorem setAxis_inhn (n : AxisNo) (a : Axis) (s : State) : (setAxis n a s).inhn = s.inhn := rfl
@[simp] theorem setAxis_gates (n : AxisNo) (a : Axis) (s : State) : (setAxis n a s).gates = s.gates := rfl
@[simp] theorem setAxis_axes (n : AxisNo) (a : Axis) (s : State) : (setAxis n a s).axes = put s.axes n a := rfl
@[simp] theorem setAxis_lines (n : AxisNo) (a : Axis) (s : State) : (setAxis n a s).lines = s.lines := rfl
@[simp] theorem setAxis_store (n : AxisNo) (a : Axis) (s : State) : (setAxis n a s).store = s.store := rfl
@[simp] theorem setAxis_manager (n : AxisNo) (a : Axis) (s : State) : (setAxis n a s).manager = s.manager := rfl
@[simp] theorem setAxis_port (n : AxisNo) (a : Axis) (s : State) : (setAxis n a s).port = s.port := rfl
@[simp] theorem setAxis_choices (n : AxisNo) (a : Axis) (s : State) : (setAxis n a s).choices = s.choices := rfl
@[simp] theorem setAxis_pending (n : AxisNo) (a : Axis) (s : State) : (setAxis n a s).pending = s.pending := rfl

/-! ### setLine -/

@[simp] theorem setLine_now (l : LineNo) (d : LineDriver) (s : State) : (setLine l d s).now = s.now := rfl
@[simp] theorem setLine_resetLow (l : LineNo) (d : LineDriver) (s : State) : (setLine l d s).resetLow = s.resetLow := rfl
@[simp] theorem setLine_scsn (l : LineNo) (d : LineDriver) (s : State) : (setLine l d s).scsn = s.scsn := rfl
@[simp] theorem setLine_inhn (l : LineNo) (d : LineDriver) (s : State) : (setLine l d s).inhn = s.inhn := rfl
@[simp] theorem setLine_gates (l : LineNo) (d : LineDriver) (s : State) : (setLine l d s).gates = s.gates := rfl
@[simp] theorem setLine_axes (l : LineNo) (d : LineDriver) (s : State) : (setLine l d s).axes = s.axes := rfl
@[simp] theorem setLine_lines (l : LineNo) (d : LineDriver) (s : State) : (setLine l d s).lines = put s.lines l d := rfl
@[simp] theorem setLine_store (l : LineNo) (d : LineDriver) (s : State) : (setLine l d s).store = s.store := rfl
@[simp] theorem setLine_manager (l : LineNo) (d : LineDriver) (s : State) : (setLine l d s).manager = s.manager := rfl
@[simp] theorem setLine_port (l : LineNo) (d : LineDriver) (s : State) : (setLine l d s).port = s.port := rfl
@[simp] theorem setLine_choices (l : LineNo) (d : LineDriver) (s : State) : (setLine l d s).choices = s.choices := rfl
@[simp] theorem setLine_pending (l : LineNo) (d : LineDriver) (s : State) : (setLine l d s).pending = s.pending := rfl

/-! ### setStore -/

@[simp] theorem setStore_now (st : Store) (s : State) : (setStore st s).now = s.now := rfl
@[simp] theorem setStore_resetLow (st : Store) (s : State) : (setStore st s).resetLow = s.resetLow := rfl
@[simp] theorem setStore_scsn (st : Store) (s : State) : (setStore st s).scsn = s.scsn := rfl
@[simp] theorem setStore_inhn (st : Store) (s : State) : (setStore st s).inhn = s.inhn := rfl
@[simp] theorem setStore_gates (st : Store) (s : State) : (setStore st s).gates = s.gates := rfl
@[simp] theorem setStore_axes (st : Store) (s : State) : (setStore st s).axes = s.axes := rfl
@[simp] theorem setStore_lines (st : Store) (s : State) : (setStore st s).lines = s.lines := rfl
@[simp] theorem setStore_store (st : Store) (s : State) : (setStore st s).store = st := rfl
@[simp] theorem setStore_manager (st : Store) (s : State) : (setStore st s).manager = s.manager := rfl
@[simp] theorem setStore_port (st : Store) (s : State) : (setStore st s).port = s.port := rfl
@[simp] theorem setStore_choices (st : Store) (s : State) : (setStore st s).choices = s.choices := rfl
@[simp] theorem setStore_pending (st : Store) (s : State) : (setStore st s).pending = s.pending := rfl

/-! ### advanceTo -/

@[simp] theorem advanceTo_now (t : Nat) (s : State) : (advanceTo t s).now = max s.now t := rfl
@[simp] theorem advanceTo_resetLow (t : Nat) (s : State) : (advanceTo t s).resetLow = s.resetLow := rfl
@[simp] theorem advanceTo_scsn (t : Nat) (s : State) : (advanceTo t s).scsn = s.scsn := rfl
@[simp] theorem advanceTo_inhn (t : Nat) (s : State) : (advanceTo t s).inhn = s.inhn := rfl
@[simp] theorem advanceTo_gates (t : Nat) (s : State) : (advanceTo t s).gates = s.gates := rfl
@[simp] theorem advanceTo_axes (t : Nat) (s : State) : (advanceTo t s).axes = s.axes := rfl
@[simp] theorem advanceTo_lines (t : Nat) (s : State) : (advanceTo t s).lines = s.lines := rfl
@[simp] theorem advanceTo_store (t : Nat) (s : State) : (advanceTo t s).store = s.store := rfl
@[simp] theorem advanceTo_manager (t : Nat) (s : State) : (advanceTo t s).manager = s.manager := rfl
@[simp] theorem advanceTo_port (t : Nat) (s : State) : (advanceTo t s).port = s.port := rfl
@[simp] theorem advanceTo_choices (t : Nat) (s : State) : (advanceTo t s).choices = s.choices := rfl
@[simp] theorem advanceTo_pending (t : Nat) (s : State) : (advanceTo t s).pending = s.pending := rfl

/-! ### closeBatch -/

@[simp] theorem closeBatch_now  (s : State) : (closeBatch s).now = s.now := rfl
@[simp] theorem closeBatch_resetLow  (s : State) : (closeBatch s).resetLow = s.resetLow := rfl
@[simp] theorem closeBatch_scsn  (s : State) : (closeBatch s).scsn = s.scsn := rfl
@[simp] theorem closeBatch_inhn  (s : State) : (closeBatch s).inhn = s.inhn := rfl
@[simp] theorem closeBatch_gates  (s : State) : (closeBatch s).gates = s.gates := rfl
@[simp] theorem closeBatch_axes  (s : State) : (closeBatch s).axes = s.axes := rfl
@[simp] theorem closeBatch_lines  (s : State) : (closeBatch s).lines = s.lines := rfl
@[simp] theorem closeBatch_store  (s : State) : (closeBatch s).store = s.store := rfl
@[simp] theorem closeBatch_manager  (s : State) : (closeBatch s).manager = { s.manager with batchOpen := false, staging := [] } := rfl
@[simp] theorem closeBatch_port  (s : State) : (closeBatch s).port = s.port := rfl
@[simp] theorem closeBatch_choices  (s : State) : (closeBatch s).choices = s.choices := rfl
@[simp] theorem closeBatch_pending  (s : State) : (closeBatch s).pending = s.pending := rfl

/-! ### respond -/

@[simp] theorem respond_now (f : Frame) (r : Reply) (s : State) : (respond f r s).now = s.now := rfl
@[simp] theorem respond_resetLow (f : Frame) (r : Reply) (s : State) : (respond f r s).resetLow = s.resetLow := rfl
@[simp] theorem respond_scsn (f : Frame) (r : Reply) (s : State) : (respond f r s).scsn = s.scsn := rfl
@[simp] theorem respond_inhn (f : Frame) (r : Reply) (s : State) : (respond f r s).inhn = s.inhn := rfl
@[simp] theorem respond_gates (f : Frame) (r : Reply) (s : State) : (respond f r s).gates = s.gates := rfl
@[simp] theorem respond_axes (f : Frame) (r : Reply) (s : State) : (respond f r s).axes = s.axes := rfl
@[simp] theorem respond_lines (f : Frame) (r : Reply) (s : State) : (respond f r s).lines = s.lines := rfl
@[simp] theorem respond_store (f : Frame) (r : Reply) (s : State) : (respond f r s).store = s.store := rfl
@[simp] theorem respond_manager (f : Frame) (r : Reply) (s : State) : (respond f r s).manager = { s.manager with inProgress := none } := rfl
@[simp] theorem respond_port (f : Frame) (r : Reply) (s : State) : (respond f r s).port = { s.port with responseQueue := s.port.responseQueue ++ responseGroup f r } := rfl
@[simp] theorem respond_choices (f : Frame) (r : Reply) (s : State) : (respond f r s).choices = s.choices := rfl
@[simp] theorem respond_pending (f : Frame) (r : Reply) (s : State) : (respond f r s).pending = s.pending := rfl

/-! ### completedWith -/

@[simp] theorem completedWith_now (parts : List ResponsePart) (s : State) : (completedWith parts s).now = s.now := rfl
@[simp] theorem completedWith_resetLow (parts : List ResponsePart) (s : State) : (completedWith parts s).resetLow = s.resetLow := rfl
@[simp] theorem completedWith_scsn (parts : List ResponsePart) (s : State) : (completedWith parts s).scsn = s.scsn := rfl
@[simp] theorem completedWith_inhn (parts : List ResponsePart) (s : State) : (completedWith parts s).inhn = s.inhn := rfl
@[simp] theorem completedWith_gates (parts : List ResponsePart) (s : State) : (completedWith parts s).gates = s.gates := rfl
@[simp] theorem completedWith_axes (parts : List ResponsePart) (s : State) : (completedWith parts s).axes = s.axes := rfl
@[simp] theorem completedWith_lines (parts : List ResponsePart) (s : State) : (completedWith parts s).lines = s.lines := rfl
@[simp] theorem completedWith_store (parts : List ResponsePart) (s : State) : (completedWith parts s).store = s.store := rfl
@[simp] theorem completedWith_manager (parts : List ResponsePart) (s : State) : (completedWith parts s).manager = { s.manager with inProgress := none } := rfl
@[simp] theorem completedWith_port (parts : List ResponsePart) (s : State) : (completedWith parts s).port = { s.port with responseQueue := s.port.responseQueue ++ parts } := rfl
@[simp] theorem completedWith_choices (parts : List ResponsePart) (s : State) : (completedWith parts s).choices = s.choices := rfl
@[simp] theorem completedWith_pending (parts : List ResponsePart) (s : State) : (completedWith parts s).pending = s.pending := rfl

/-! ### settle -/

@[simp] theorem settle_slots  (st : Store) : (settle st).slots = st.slots := rfl
@[simp] theorem settle_lists  (st : Store) : (settle st).lists = st.lists := rfl
@[simp] theorem settle_occupancy  (st : Store) : (settle st).occupancy = st.occupancy := rfl
@[simp] theorem settle_axisNotices  (st : Store) : (settle st).axisNotices = st.axisNotices := rfl
@[simp] theorem settle_attention  (st : Store) : (settle st).attention = noticesWaiting st := rfl

/-! ### setContent -/

@[simp] theorem setContent_slots (i : SlotNo) (c : SlotContent) (st : Store) : (setContent i c st).slots = put st.slots i { st.slots[i] with content := c } := rfl
@[simp] theorem setContent_lists (i : SlotNo) (c : SlotContent) (st : Store) : (setContent i c st).lists = st.lists := rfl
@[simp] theorem setContent_occupancy (i : SlotNo) (c : SlotContent) (st : Store) : (setContent i c st).occupancy = st.occupancy := rfl
@[simp] theorem setContent_axisNotices (i : SlotNo) (c : SlotContent) (st : Store) : (setContent i c st).axisNotices = st.axisNotices := rfl
@[simp] theorem setContent_attention (i : SlotNo) (c : SlotContent) (st : Store) : (setContent i c st).attention = st.attention := rfl

/-! ### setLive -/

@[simp] theorem setLive_slots (i : SlotNo) (r : TripRecord) (st : Store) : (setLive i r st).slots = put st.slots i { st.slots[i] with content := .live r } := rfl
@[simp] theorem setLive_lists (i : SlotNo) (r : TripRecord) (st : Store) : (setLive i r st).lists = st.lists := rfl
@[simp] theorem setLive_occupancy (i : SlotNo) (r : TripRecord) (st : Store) : (setLive i r st).occupancy = st.occupancy := rfl
@[simp] theorem setLive_axisNotices (i : SlotNo) (r : TripRecord) (st : Store) : (setLive i r st).axisNotices = st.axisNotices := rfl
@[simp] theorem setLive_attention (i : SlotNo) (r : TripRecord) (st : Store) : (setLive i r st).attention = st.attention := rfl

/-! ### raiseOccupancy -/

@[simp] theorem raiseOccupancy_slots (n : AxisNo) (st : Store) : (raiseOccupancy n st).slots = st.slots := rfl
@[simp] theorem raiseOccupancy_lists (n : AxisNo) (st : Store) : (raiseOccupancy n st).lists = st.lists := rfl
@[simp] theorem raiseOccupancy_occupancy (n : AxisNo) (st : Store) : (raiseOccupancy n st).occupancy = put st.occupancy n (st.occupancy[n] + 1) := rfl
@[simp] theorem raiseOccupancy_axisNotices (n : AxisNo) (st : Store) : (raiseOccupancy n st).axisNotices = st.axisNotices := rfl
@[simp] theorem raiseOccupancy_attention (n : AxisNo) (st : Store) : (raiseOccupancy n st).attention = st.attention := rfl

/-! ### place -/

@[simp] theorem place_slots (n : AxisNo) (i : SlotNo) (p : Int) (st : Store) : (place n i p st).slots = st.slots := rfl
@[simp] theorem place_lists (n : AxisNo) (i : SlotNo) (p : Int) (st : Store) : (place n i p st).lists = put st.lists n (placeIn (positionOf st) i p st.lists[n]) := rfl
@[simp] theorem place_occupancy (n : AxisNo) (i : SlotNo) (p : Int) (st : Store) : (place n i p st).occupancy = st.occupancy := rfl
@[simp] theorem place_axisNotices (n : AxisNo) (i : SlotNo) (p : Int) (st : Store) : (place n i p st).axisNotices = st.axisNotices := rfl
@[simp] theorem place_attention (n : AxisNo) (i : SlotNo) (p : Int) (st : Store) : (place n i p st).attention = st.attention := rfl

/-! ### unlist -/

@[simp] theorem unlist_slots (n : AxisNo) (i : SlotNo) (st : Store) : (unlist n i st).slots = st.slots := rfl
@[simp] theorem unlist_lists (n : AxisNo) (i : SlotNo) (st : Store) : (unlist n i st).lists = put st.lists n (st.lists[n].filter (· ≠ i)) := rfl
@[simp] theorem unlist_occupancy (n : AxisNo) (i : SlotNo) (st : Store) : (unlist n i st).occupancy = st.occupancy := rfl
@[simp] theorem unlist_axisNotices (n : AxisNo) (i : SlotNo) (st : Store) : (unlist n i st).axisNotices = st.axisNotices := rfl
@[simp] theorem unlist_attention (n : AxisNo) (i : SlotNo) (st : Store) : (unlist n i st).attention = st.attention := rfl

/-! ### wiped -/

@[simp] theorem wiped_slots  (st : Store) : (wiped st).slots = mapAll wipedSlot st.slots := rfl
@[simp] theorem wiped_lists  (st : Store) : (wiped st).lists = Vector.replicate 8 [] := rfl
@[simp] theorem wiped_occupancy  (st : Store) : (wiped st).occupancy = Vector.replicate 8 0 := rfl
@[simp] theorem wiped_axisNotices  (st : Store) : (wiped st).axisNotices = st.axisNotices := rfl
@[simp] theorem wiped_attention  (st : Store) : (wiped st).attention = st.attention := rfl

/-! ### Updates that meet -/

@[simp] theorem setAxis_setAxis (n : AxisNo) (a b : Axis) (s : State) : setAxis n a (setAxis n b s) = setAxis n a s := by
  simp [setAxis]

@[simp] theorem setLine_setLine (l : LineNo) (a b : LineDriver) (s : State) :
    setLine l a (setLine l b s) = setLine l a s := by
  simp [setLine]

@[simp] theorem setStore_setStore (x y : Store) (s : State) : setStore x (setStore y s) = setStore x s := rfl

@[simp] theorem setStore_self (s : State) : setStore s.store s = s := rfl

@[simp] theorem setAxis_self (n : AxisNo) (s : State) : setAxis n s.axes[n] s = s := by
  simp only [setAxis, put_getElem_self]

theorem setAxis_setStore (n : AxisNo) (a : Axis) (st : Store) (s : State) :
    setAxis n a (setStore st s) = setStore st (setAxis n a s) := rfl

@[simp] theorem axes_setAxis_self (n : AxisNo) (a : Axis) (s : State) : (setAxis n a s).axes[n] = a := by
  simp

@[simp] theorem lines_setLine_self (l : LineNo) (d : LineDriver) (s : State) : (setLine l d s).lines[l] = d := by
  simp

/-- `answered` is the model's answer of one part. -/
theorem answered_eq_respond (f : Frame) (c : Completion) (items : List Byte) (s : State) :
    answered f c items s = respond f ⟨c, [items]⟩ s := rfl

end Sys2Proof.Machine
end

