-- ==== Sys2Proof/Laws/Requests.lean ====
section
/-! SUPPORT. What the shared steps of a request answer: the request in progress, its checks, and its completion. -/

namespace Sys2Proof.Machine

/-! ### The request in progress -/

theorem requestOf_eq_some_iff (code : Nat) (s : State) (f : Frame) :
    requestOf code s = some f ↔ InProgress s f code := by
  unfold requestOf InProgress
  cases s.resetLow <;> cases h : s.manager.inProgress <;> simp
  constructor
  · rintro ⟨hc, rfl⟩; exact ⟨rfl, hc⟩
  · rintro ⟨rfl, hc⟩; exact ⟨hc, rfl⟩

theorem requestOf_of_inProgress {code : Nat} {s : State} {f : Frame} (h : InProgress s f code) :
    requestOf code s = some f :=
  (requestOf_eq_some_iff code s f).2 h

theorem recordRequestOf_eq_some_iff (code : Nat) (staged : Bool) (s : State) (f : Frame) :
    recordRequestOf code staged s = some f ↔ InProgress s f code ∧ batchFlag f = staged := by
  unfold recordRequestOf
  cases h : requestOf code s with
  | none =>
    have : ¬ InProgress s f code := fun h' => by simp [requestOf_of_inProgress h'] at h
    simp [this]
  | some g =>
    have hg := (requestOf_eq_some_iff code s g).1 h
    have key : InProgress s f code → g = f := fun h' => by
      have := requestOf_of_inProgress h'
      rw [h] at this
      injection this
    simp only
    split
    · constructor
      · intro h'; injection h' with h'; subst h'; exact ⟨hg, ‹_›⟩
      · rintro ⟨h', -⟩; rw [key h']
    · constructor
      · intro h'; cases h'
      · rintro ⟨h', hb⟩; rw [← key h'] at hb; contradiction

theorem recordRequestOf_of_inProgress {code : Nat} {staged : Bool} {s : State} {f : Frame}
    (h : InProgress s f code) (hb : batchFlag f = staged) : recordRequestOf code staged s = some f :=
  (recordRequestOf_eq_some_iff code staged s f).2 ⟨h, hb⟩

/-! ### Checks -/

@[simp] theorem require_true (r : Refused) : require true r = .ok () := rfl

@[simp] theorem require_false (r : Refused) : require false r = .error r := rfl

theorem require_eq_ok_iff (b : Bool) (r : Refused) : require b r = .ok () ↔ b = true := by
  cases b <;> simp

@[simp] theorem fieldOr_some {α : Type} (byte bit : Nat) (x : α) : fieldOr byte bit (some x) = .ok x := rfl

@[simp] theorem fieldOr_none {α : Type} (byte bit : Nat) :
    fieldOr byte bit (none : Option α) = .error (badField byte bit) := rfl

theorem noBatchFlag_of_clear {f : Frame} (h : batchFlag f = false) : noBatchFlag f = .ok () := by
  simp [noBatchFlag, h]

theorem noBatchFlag_of_set {f : Frame} (h : batchFlag f = true) : noBatchFlag f = .error (badField 2 0) := by
  simp [noBatchFlag, h]

theorem finOf_eq_some_iff {n k : Nat} (x : Fin n) : finOf n k = some x ↔ k = x.val := by
  unfold finOf
  split
  · simp [Fin.ext_iff]
  next h => simp; omega

theorem finOf_of_eq {n k : Nat} {x : Fin n} (h : k = x.val) : finOf n k = some x :=
  (finOf_eq_some_iff x).2 h

theorem finOf_of_le {n k : Nat} (h : n ≤ k) : finOf n k = none := by
  unfold finOf
  simp [Nat.not_lt.2 h]

/-- The axis of an axis request, its batch flag clear. -/
theorem namedAxis_of_clear {f : Frame} {n : AxisNo} (hb : batchFlag f = false) (hn : u8 f 3 = n.val) :
    namedAxis f = .ok n := by
  simp only [namedAxis, noBatchFlag_of_clear hb, axisOperand, finOf_of_eq hn, fieldOr_some]
  rfl

/-! ### Binding of checks -/

@[simp] theorem verdict_ok_bind {α β : Type} (x : α) (k : α → Verdict β) : ((Except.ok x : Verdict α) >>= k) = k x := rfl

@[simp] theorem verdict_error_bind {α β : Type} (e : Refused) (k : α → Verdict β) :
    ((Except.error e : Verdict α) >>= k) = .error e := rfl

@[simp] theorem verdict_pure {α : Type} (x : α) : (pure x : Verdict α) = .ok x := rfl

/-- A chain of checks that answers a value passed its first check. -/
theorem verdict_bind_eq_ok {α β : Type} {v : Verdict α} {k : α → Verdict β} {y : β} (h : (v >>= k) = .ok y) :
    ∃ x, v = .ok x ∧ k x = .ok y := by
  cases v with
  | error e => cases h
  | ok x => exact ⟨x, rfl, h⟩

/-! ### Completion -/

@[simp] theorem answer_ok (f : Frame) (t : State) (r : Reply) (s : State) : answer f (.ok (t, r)) s = respond f r t := rfl

@[simp] theorem answer_error (f : Frame) (e : Refused) (s : State) :
    answer f (.error e) s = answered f e.code e.items s := rfl

@[simp] theorem respond_one (f : Frame) (c : Completion) (items : List Byte) (s : State) :
    respond f ⟨c, [items]⟩ s = answered f c items s := rfl

@[simp] theorem respond_doneWith (f : Frame) (items : List Byte) (s : State) :
    respond f (doneWith items) s = answered f .done items s := rfl

/-- A row that completes the request in progress either does not arise, or answers it (R155). -/
theorem serve_eq (request : Option Frame) (claim : Frame → State → Verdict (State × Reply)) (s : State) :
    (request = none ∧ serve request claim s = .next s) ∨
    ∃ f, request = some f ∧ serve request claim s = .next (answer f (claim f s) s) := by
  cases request with
  | none => exact .inl ⟨rfl, rfl⟩
  | some f => exact .inr ⟨f, rfl, rfl⟩

theorem serve_of_some {request : Option Frame} {f : Frame} (claim : Frame → State → Verdict (State × Reply)) (s : State)
    (h : request = some f) : serve request claim s = .next (answer f (claim f s) s) := by
  subst h; rfl

theorem length_responseGroup (f : Frame) (r : Reply) : (responseGroup f r).length = r.parts.length := by
  simp [responseGroup]

end Sys2Proof.Machine
end

