-- ==== Sys2Proof/Laws/Store.lean ====
section
/-! SUPPORT. What the operations of the trip store can do: which record a slot or a handle names, and what a replaced record, a
freed slot, a link, a placement and a removal leave. -/

namespace Sys2Proof.Machine

/-! ### The record of a slot and of a handle -/

theorem liveAt_eq_some_iff (st : Store) (i : SlotNo) (r : TripRecord) :
    liveAt st i = some r ↔ st.slots[i].content = .live r := by
  unfold liveAt
  split <;> simp_all

theorem liveAs_eq_some_iff (st : Store) (h : Handle) (r : TripRecord) :
    liveAs st h = some r ↔ st.slots[h.slot].gen = h.gen ∧ liveAt st h.slot = some r := by
  unfold liveAs
  split <;> simp_all

/-- The handle names the record of its slot exactly when it is the handle of the occupant. -/
theorem handleOf_eq_iff (st : Store) (i : SlotNo) (h : Handle) :
    handleOf st i = h ↔ h.slot = i ∧ st.slots[i].gen = h.gen := by
  cases h
  simp only [handleOf, Handle.mk.injEq, eq_comm (a := i)]

theorem slot_of_liveAs {st : Store} {h : Handle} {r : TripRecord} (hl : liveAs st h = some r) :
    st.slots[h.slot] = ⟨h.gen, .live r⟩ := by
  obtain ⟨hg, hr⟩ := (liveAs_eq_some_iff st h r).1 hl
  rw [liveAt_eq_some_iff] at hr
  cases hs : st.slots[h.slot]
  simp_all

theorem liveAs_of_slot {st : Store} {h : Handle} {r : TripRecord} (hs : st.slots[h.slot] = ⟨h.gen, .live r⟩) :
    liveAs st h = some r := by
  rw [liveAs_eq_some_iff, liveAt_eq_some_iff, hs]
  exact ⟨rfl, rfl⟩

theorem handleOf_slot_of_liveAs {st : Store} {h : Handle} {r : TripRecord} (hl : liveAs st h = some r) :
    handleOf st h.slot = h :=
  (handleOf_eq_iff st h.slot h).2 ⟨rfl, ((liveAs_eq_some_iff st h r).1 hl).1⟩

theorem liveAs_handleOf (st : Store) (i : SlotNo) : liveAs st (handleOf st i) = liveAt st i := by
  simp [liveAs, handleOf]

/-! ### Resolution (R4, R5) -/

theorem resolve_of_liveAs {st : Store} {h : Handle} {r : TripRecord} (hl : liveAs st h = some r) :
    resolve st h = .ok r := by
  simp [resolve, slot_of_liveAs hl]

theorem resolve_eq_ok_iff (st : Store) (h : Handle) (r : TripRecord) : resolve st h = .ok r ↔ liveAs st h = some r := by
  refine ⟨fun hr => ?_, resolve_of_liveAs⟩
  rw [liveAs_eq_some_iff, liveAt_eq_some_iff]
  unfold resolve at hr
  split at hr
  · cases hr
  · split at hr <;> cases hr
  · split at hr
    · injection hr with hr; subst hr; exact ⟨‹_›, ‹_›⟩
    · cases hr

theorem successorLive_eq_ok_iff (st : Store) (o : Option Handle) :
    successorLive st o = .ok () ↔ ∀ h, o = some h → (liveAs st h).isSome = true := by
  cases o with
  | none => simp [successorLive]
  | some h =>
    cases hl : (liveAs st h).isSome <;> simp [successorLive, require, hl]

theorem successorLive_eq_error {st : Store} {o : Option Handle} (h : badSuccessor st o) :
    successorLive st o = .error (refuse .badLink) := by
  obtain ⟨k, rfl, hk⟩ := h
  simp [successorLive, hk, require]

theorem successorLive_eq_ok {st : Store} {o : Option Handle} (h : ¬ badSuccessor st o) : successorLive st o = .ok () := by
  rw [successorLive_eq_ok_iff]
  intro k hk
  rw [Option.isSome_iff_ne_none]
  exact fun hn => h ⟨k, hk, hn⟩

/-! ### A replaced record -/

@[simp] theorem liveAt_setLive (i j : SlotNo) (r : TripRecord) (st : Store) :
    liveAt (setLive i r st) j = if i = j then some r else liveAt st j := by
  by_cases h : i = j
  · subst h; simp [liveAt]
  · have hv : i.val ≠ j.val := fun e => h (Fin.ext e)
    simp [liveAt, h, hv]

@[simp] theorem handleOf_setContent (i j : SlotNo) (c : SlotContent) (st : Store) :
    handleOf (setContent i c st) j = handleOf st j := by
  by_cases h : i.val = j.val
  · simp [handleOf, h]
  · simp [handleOf, h]

@[simp] theorem handleOf_setLive (i j : SlotNo) (r : TripRecord) (st : Store) :
    handleOf (setLive i r st) j = handleOf st j :=
  handleOf_setContent i j (.live r) st

@[simp] theorem gen_setLive (i j : SlotNo) (r : TripRecord) (st : Store) :
    (setLive i r st).slots[j].gen = st.slots[j].gen := by
  by_cases h : i.val = j.val
  · simp [h]
  · simp [h]

theorem liveAs_setLive (i : SlotNo) (h : Handle) (r : TripRecord) (st : Store) :
    liveAs (setLive i r st) h =
      if i = h.slot ∧ st.slots[i].gen = h.gen then some r else if i = h.slot then none else liveAs st h := by
  unfold liveAs
  rw [gen_setLive, liveAt_setLive]
  by_cases hi : i = h.slot
  · subst hi; split_ifs <;> simp_all
  · simp [hi]

@[simp] theorem setLive_setLive (i : SlotNo) (r r' : TripRecord) (st : Store) :
    setLive i r (setLive i r' st) = setLive i r st := by
  simp [setLive, setContent]

/-- Replacing a LIVE record by itself changes nothing. -/
theorem setLive_self {i : SlotNo} {r : TripRecord} {st : Store} (h : liveAt st i = some r) : setLive i r st = st := by
  rw [liveAt_eq_some_iff] at h
  have : ({ st.slots[i] with content := .live r } : Slot) = st.slots[i] := by
    cases hs : st.slots[i]; simp_all
  simp only [setLive, setContent, this, put_getElem_self]

theorem positionOf_of_liveAt {st : Store} {i : SlotNo} {r : TripRecord} (h : liveAt st i = some r) :
    positionOf st i = r.position := by
  rw [liveAt_eq_some_iff] at h
  simp only [positionOf, h]

theorem positionOf_setLive (i j : SlotNo) (r : TripRecord) (st : Store) :
    positionOf (setLive i r st) j = if i = j then r.position else positionOf st j := by
  by_cases h : i = j
  · subst h; simp [positionOf]
  · have hv : i.val ≠ j.val := fun e => h (Fin.ext e)
    simp [positionOf, h, hv]

/-- A record replaced at its position leaves every position as it was. -/
theorem positionOf_setLive_same {i : SlotNo} {r r' : TripRecord} {st : Store} (h : liveAt st i = some r)
    (hp : r'.position = r.position) : positionOf (setLive i r' st) = positionOf st := by
  funext j
  rw [positionOf_setLive]
  split
  next hj => subst hj; rw [hp, positionOf_of_liveAt h]
  next => rfl

/-! ### Links (R18) -/

theorem raisePred_of_live {st : Store} {h : Handle} {r : TripRecord} (hl : liveAs st h = some r) :
    raisePred h st = setLive h.slot { r with predCount := r.predCount + 1 } st := by
  simp [raisePred, hl]

theorem raisePred_of_none {st : Store} {h : Handle} (hl : liveAs st h = none) : raisePred h st = st := by
  simp [raisePred, hl]

theorem lowerPred_of_live {st : Store} {h : Handle} {r : TripRecord} (hl : liveAs st h = some r) :
    lowerPred h st = setLive h.slot { r with predCount := r.predCount - 1 } st := by
  simp [lowerPred, hl]

theorem lowerPred_of_none {st : Store} {h : Handle} (hl : liveAs st h = none) : lowerPred h st = st := by
  simp [lowerPred, hl]

/-- A link touches no list, no count, no axis entry and not the attention line. -/
theorem link_frame (o : Option Handle) (st : Store) : link o st = { st with slots := (link o st).slots } := by
  cases o with
  | none => rfl
  | some h => cases hl : liveAs st h <;> simp [link, raisePred, hl, setLive, setContent]

/-- An ended link touches no list, no count, no axis entry and not the attention line. -/
theorem unlink_frame (o : Option Handle) (st : Store) : unlink o st = { st with slots := (unlink o st).slots } := by
  cases o with
  | none => rfl
  | some h => cases hl : liveAs st h <;> simp [unlink, lowerPred, hl, setLive, setContent]

theorem positionOf_link (o : Option Handle) (st : Store) : positionOf (link o st) = positionOf st := by
  cases o with
  | none => rfl
  | some h =>
    cases hl : liveAs st h with
    | none => simp [link, raisePred_of_none hl]
    | some r =>
      simp only [link, raisePred_of_live hl]
      exact positionOf_setLive_same ((liveAs_eq_some_iff st h r).1 hl).2 rfl

theorem positionOf_unlink (o : Option Handle) (st : Store) : positionOf (unlink o st) = positionOf st := by
  cases o with
  | none => rfl
  | some h =>
    cases hl : liveAs st h with
    | none => simp [unlink, lowerPred_of_none hl]
    | some r =>
      simp only [unlink, lowerPred_of_live hl]
      exact positionOf_setLive_same ((liveAs_eq_some_iff st h r).1 hl).2 rfl

/-- A link that neither leaves nor reaches the record of the slot changes nothing there. -/
theorem relinked_of_ne {old new : Option Handle} {st : Store} {j : SlotNo} (hn : new ≠ some (handleOf st j))
    (ho : old ≠ some (handleOf st j)) : relinked old new st j = st.slots[j] := by
  unfold relinked
  split <;> simp [hn, ho]

theorem relinked_self (o : Option Handle) (st : Store) (j : SlotNo) : relinked o o st j = st.slots[j] := by
  unfold relinked
  split <;> simp

/-- A slot without a LIVE record has no count to change. -/
theorem relinked_of_not_live {st : Store} {j : SlotNo} (h : liveAt st j = none) (old new : Option Handle) :
    relinked old new st j = st.slots[j] := by
  unfold relinked
  split
  next r hr => rw [(liveAt_eq_some_iff st j r).2 hr] at h; cases h
  all_goals rfl

/-- A counted link raises the count of the record it names, and nothing else. -/
theorem slots_link (o : Option Handle) (st : Store) (j : SlotNo) : (link o st).slots[j] = relinked none o st j := by
  cases o with
  | none => rw [relinked_self]; rfl
  | some h =>
    change (raisePred h st).slots[j] = _
    cases hl : liveAs st h with
    | none =>
      rw [raisePred_of_none hl]
      by_cases hj : h = handleOf st j
      · rw [hj, liveAs_handleOf] at hl
        rw [relinked_of_not_live hl]
      · exact (relinked_of_ne (by simpa using hj) (by simp)).symm
    | some r =>
      rw [raisePred_of_live hl, setLive_slots]
      by_cases hj : h.slot = j
      · subst hj
        rw [getElem_put_self]
        have hr := ((liveAs_eq_some_iff st h r).1 hl).2
        rw [liveAt_eq_some_iff] at hr
        simp only [relinked, hr, handleOf_slot_of_liveAs hl, reduceCtorEq, if_false, if_true]
      · have hne : h ≠ handleOf st j := fun e => hj (by rw [e]; rfl)
        rw [getElem_put_ne _ _ _ _ (fun e => hj e.symm)]
        exact (relinked_of_ne (by simpa using hne) (by simp)).symm

/-- An ended link lowers the count of the record it names, and nothing else. -/
theorem slots_unlink (o : Option Handle) (st : Store) (j : SlotNo) : (unlink o st).slots[j] = relinked o none st j := by
  cases o with
  | none => rw [relinked_self]; rfl
  | some h =>
    change (lowerPred h st).slots[j] = _
    cases hl : liveAs st h with
    | none =>
      rw [lowerPred_of_none hl]
      by_cases hj : h = handleOf st j
      · rw [hj, liveAs_handleOf] at hl
        rw [relinked_of_not_live hl]
      · exact (relinked_of_ne (by simp) (by simpa using hj)).symm
    | some r =>
      rw [lowerPred_of_live hl, setLive_slots]
      by_cases hj : h.slot = j
      · subst hj
        rw [getElem_put_self]
        have hr := ((liveAs_eq_some_iff st h r).1 hl).2
        rw [liveAt_eq_some_iff] at hr
        simp only [relinked, hr, handleOf_slot_of_liveAs hl, reduceCtorEq, if_false, if_true]
      · have hne : h ≠ handleOf st j := fun e => hj (by rw [e]; rfl)
        rw [getElem_put_ne _ _ _ _ (fun e => hj e.symm)]
        exact (relinked_of_ne (by simp) (by simpa using hne)).symm

/-! ### A freed slot (R2, R8) -/

theorem freeSlot_of_live {st : Store} {i : SlotNo} {r : TripRecord} (h : liveAt st i = some r) :
    freeSlot i st =
      { st with
        slots := put st.slots i ⟨st.slots[i].gen + 1, .free⟩
        occupancy := put st.occupancy r.axis (st.occupancy[r.axis] - 1) } := by
  rw [liveAt_eq_some_iff] at h
  simp only [freeSlot, h]

/-! ### The lowest FREE slot (R7) -/

theorem isFree_eq_true_iff (st : Store) (i : SlotNo) : isFree st i = true ↔ st.slots[i].content = .free := by
  simp [isFree]

theorem lowestFree_eq_none_iff (st : Store) : lowestFree st = none ↔ ∀ i : SlotNo, st.slots[i].content ≠ .free := by
  unfold lowestFree
  rw [List.find?_eq_none]
  constructor
  · intro h i hi
    exact h i (List.mem_finRange i) ((isFree_eq_true_iff st i).2 hi)
  · intro h i _ hi
    exact h i ((isFree_eq_true_iff st i).1 hi)

theorem lowestFree_eq_some_iff (st : Store) (i : SlotNo) : lowestFree st = some i ↔ IsLowestFree st i := by
  unfold lowestFree IsLowestFree
  rw [List.find?_eq_some_iff_getElem]
  constructor
  · rintro ⟨hf, k, hk, hi, hj⟩
    refine ⟨(isFree_eq_true_iff st i).1 hf, fun j hlt hfree => ?_⟩
    have hik : i.val = k := by rw [← hi]; simp
    have := hj j.val (by rw [← hik]; exact hlt)
    simp only [List.getElem_finRange, Fin.cast_mk, Fin.eta] at this
    rw [(isFree_eq_true_iff st j).2 hfree] at this
    cases this
  · rintro ⟨hf, hj⟩
    refine ⟨(isFree_eq_true_iff st i).2 hf, i.val, by simp, by simp, fun k hk => ?_⟩
    have := hj ⟨k, by omega⟩ hk
    simp only [List.getElem_finRange, Fin.cast_mk]
    cases hh : isFree st ⟨k, by omega⟩
    · rfl
    · exact absurd ((isFree_eq_true_iff st _).1 hh) this

/-! ### Order lists -/

theorem mem_placeIn (pos : SlotNo → Int) (i : SlotNo) (p : Int) (l : List SlotNo) (j : SlotNo) :
    j ∈ placeIn pos i p l ↔ j = i ∨ j ∈ l := by
  induction l with
  | nil => simp [placeIn]
  | cons k l ih =>
    simp only [placeIn]
    split
    · simp only [List.mem_cons, ih]; tauto
    · simp

theorem length_placeIn (pos : SlotNo → Int) (i : SlotNo) (p : Int) (l : List SlotNo) :
    (placeIn pos i p l).length = l.length + 1 := by
  induction l with
  | nil => rfl
  | cons k l ih =>
    simp only [placeIn]
    split
    · simp [ih]
    · simp

/-! ### The notice set (R138, R142) -/

@[simp] theorem settle_settle (st : Store) : settle (settle st) = settle st := rfl

/-- The notice set is non-empty exactly when some axis, or some LIVE record, has a pending kind. -/
theorem noticesWaiting_eq_true_iff (st : Store) :
    noticesWaiting st = true ↔
      (∃ n : AxisNo, hasAxisEntry st.axisNotices[n] = true) ∨
      ∃ (i : SlotNo) (r : TripRecord), liveAt st i = some r ∧ noKinds r.pending = false := by
  simp only [noticesWaiting, Bool.or_eq_true, List.any_eq_true, Vector.mem_toList_iff, Vector.mem_iff_getElem]
  constructor
  · rintro (⟨_, ⟨k, hk, rfl⟩, h⟩ | ⟨_, ⟨k, hk, rfl⟩, h⟩)
    · exact .inl ⟨⟨k, hk⟩, h⟩
    · refine .inr ⟨⟨k, hk⟩, ?_⟩
      simp only [liveAt_eq_some_iff, Fin.getElem_fin]
      revert h
      generalize st.slots[k] = sl
      rcases sl with ⟨g, _ | r | r⟩ <;> simp [hasRecordEntry]
  · rintro (⟨n, h⟩ | ⟨i, r, hl, h⟩)
    · exact .inl ⟨_, ⟨n.val, n.isLt, rfl⟩, h⟩
    · refine .inr ⟨_, ⟨i.val, i.isLt, rfl⟩, ?_⟩
      rw [liveAt_eq_some_iff] at hl
      simp only [Fin.getElem_fin] at hl
      simp [hasRecordEntry, hl, h]

end Sys2Proof.Machine
end

