-- ==== Sys2Proof/Laws/Walk.lean ====
section
/-! SUPPORT. What an arriving claim, a firing and a walk can touch: the lines and the store, the command port only to complete a line
request, and the count of free values. -/

namespace Sys2Proof.Machine

/-! ### Claims -/

/-- An applied claim completes at most the DRIVE-LINE in progress (R131, R155). -/
theorem finishDrive_cases (l : LineNo) (o : Option LineClaim) (s : State) :
    finishDrive l o s = s ∨
    ∃ f, InProgress s f driveLineCode ∧ finishDrive l o s = answered f .done (driveItems s s.lines[l]) s := by
  unfold finishDrive
  split
  next c f hf =>
    split
    · exact .inr ⟨f, (requestOf_eq_some_iff _ _ _).1 hf, rfl⟩
    · exact .inl rfl
  · exact .inl rfl

/-- What differs after the events of a driver: lines, and the completion of a DRIVE-LINE. -/
theorem finishDrive_frame (l : LineNo) (o : Option LineClaim) (s : State) :
    finishDrive l o s = { s with port := (finishDrive l o s).port, manager := (finishDrive l o s).manager } := by
  obtain h | ⟨f, -, h⟩ := finishDrive_cases l o s
  · rw [h]
  · rw [h]; rfl

/-- Without a DRIVE-LINE in progress an applied claim completes nothing. -/
theorem finishDrive_of_none {s : State} (h : requestOf driveLineCode s = none) (l : LineNo) (o : Option LineClaim) :
    finishDrive l o s = s := by
  unfold finishDrive
  rw [h]
  cases o <;> rfl

theorem requestOf_setLine (code : Nat) (l : LineNo) (d : LineDriver) (s : State) :
    requestOf code (setLine l d s) = requestOf code s := rfl

theorem requestOf_setStore (code : Nat) (st : Store) (s : State) : requestOf code (setStore st s) = requestOf code s := rfl

theorem requestOf_setAxis (code : Nat) (n : AxisNo) (a : Axis) (s : State) :
    requestOf code (setAxis n a s) = requestOf code s := rfl

theorem claimArrives_frame (l : LineNo) (c : LineClaim) (s : State) :
    claimArrives l c s =
      { s with
        lines := (claimArrives l c s).lines
        port := (claimArrives l c s).port
        manager := (claimArrives l c s).manager } := by
  unfold claimArrives
  rw [finishDrive_frame]
  rfl

theorem lines_claimArrives (l : LineNo) (c : LineClaim) (s : State) :
    (claimArrives l c s).lines = put s.lines l (arrive s.now c s.lines[l]).1 := by
  unfold claimArrives
  rw [finishDrive_frame]
  rfl

theorem claimArrives_of_none {s : State} (h : requestOf driveLineCode s = none) (l : LineNo) (c : LineClaim) :
    claimArrives l c s = setLine l (arrive s.now c s.lines[l]).1 s := by
  unfold claimArrives
  exact finishDrive_of_none (by rw [requestOf_setLine, h]) _ _

theorem applyHead_frame (l : LineNo) (s : State) :
    applyHead l s =
      { s with lines := (applyHead l s).lines, port := (applyHead l s).port, manager := (applyHead l s).manager } := by
  unfold applyHead
  split
  · rfl
  · rw [finishDrive_frame]
    rfl

/-! ### Line requests -/

/-- A line request that can be carried out at a line is in progress: a DRIVE-LINE that hands over its claim, or a CONFIG-LINE or
LINE-STATUS that completes (R131, R133, R134). -/
theorem lineRequestAt_cases {l : LineNo} {s t : State} (h : lineRequestAt l s = some t) :
    (∃ f c, InProgress s f driveLineCode ∧ readDrive f = .ok (l, c) ∧ driveWaits l s = false ∧ t = claimArrives l c s) ∨
    ∃ f u r, ((InProgress s f 23 ∧ configLine f s = .ok (u, r)) ∨ (InProgress s f 24 ∧ lineStatus f s = .ok (u, r))) ∧
      finOf 16 (u8 f 3) = some l ∧ t = respond f r u := by
  have served : ∀ (code : Nat) (claim : Frame → State → Verdict (State × Reply)), servedAt code claim l s = some t →
      ∃ f u r, InProgress s f code ∧ claim f s = .ok (u, r) ∧ finOf 16 (u8 f 3) = some l ∧ t = respond f r u := by
    intro code claim hs
    unfold servedAt at hs
    split at hs
    · cases hs
    next f hf =>
      split at hs
      · cases hs
      next u r hc =>
        split at hs
        next hl => exact ⟨f, u, r, (requestOf_eq_some_iff _ _ _).1 hf, hc, hl, (Option.some.inj hs).symm⟩
        next => cases hs
  unfold lineRequestAt at h
  simp only [Option.or_eq_some_iff] at h
  obtain h | ⟨-, h⟩ := h
  · unfold drivenAt at h
    split at h
    · cases h
    next f hf =>
      split at h
      · cases h
      next k c hc =>
        split at h
        next hk => exact .inl ⟨f, c, (requestOf_eq_some_iff _ _ _).1 hf, hk.1 ▸ hc, hk.2, (Option.some.inj h).symm⟩
        next => cases h
  · obtain h | ⟨-, h⟩ := h
    · obtain ⟨f, u, r, hf, hc, hl, ht⟩ := served _ _ h
      exact .inr ⟨f, u, r, .inl ⟨hf, hc⟩, hl, ht⟩
    · obtain ⟨f, u, r, hf, hc, hl, ht⟩ := served _ _ h
      exact .inr ⟨f, u, r, .inr ⟨hf, hc⟩, hl, ht⟩

/-- CONFIG-LINE and LINE-STATUS touch one line. -/
theorem configLine_eq_ok {f : Frame} {s u : State} {r : Reply} (h : configLine f s = .ok (u, r)) :
    ∃ l p, finOf 16 (u8 f 3) = some l ∧ u = setLine l { s.lines[l] with polarity := p } s := by
  unfold configLine at h
  obtain ⟨_, _, h⟩ := verdict_bind_eq_ok h
  obtain ⟨l, hl, h⟩ := verdict_bind_eq_ok h
  obtain ⟨p, _, h⟩ := verdict_bind_eq_ok h
  cases h
  refine ⟨l, p, ?_, rfl⟩
  cases hx : finOf 16 (u8 f 3) <;> rw [hx] at hl <;> cases hl
  rfl

theorem lineStatus_eq_ok {f : Frame} {s u : State} {r : Reply} (h : lineStatus f s = .ok (u, r)) :
    ∃ l, finOf 16 (u8 f 3) = some l ∧ u = setLine l { s.lines[l] with dwellCut := false } s := by
  unfold lineStatus at h
  obtain ⟨_, _, h⟩ := verdict_bind_eq_ok h
  obtain ⟨l, hl, h⟩ := verdict_bind_eq_ok h
  cases h
  refine ⟨l, ?_, rfl⟩
  cases hx : finOf 16 (u8 f 3) <;> rw [hx] at hl <;> cases hl
  rfl

theorem lineRequestAt_frame {l : LineNo} {s t : State} (h : lineRequestAt l s = some t) :
    t = { s with lines := t.lines, port := t.port, manager := t.manager } := by
  obtain ⟨f, c, -, -, -, rfl⟩ | ⟨f, u, r, hu, -, rfl⟩ := lineRequestAt_cases h
  · rw [claimArrives_frame]
  · obtain ⟨-, hc⟩ | ⟨-, hc⟩ := hu
    · obtain ⟨k, p, -, rfl⟩ := configLine_eq_ok hc
      rfl
    · obtain ⟨k, -, rfl⟩ := lineStatus_eq_ok hc
      rfl

/-- Before a claim of a walk nothing happens but a line request to its line, which the free value may pass over. -/
theorem beforeClaim_cases (l : LineNo) (s : State) :
    (lineRequestAt l { s with choices := s.choices + 1 } = none ∧ beforeClaim l s = s) ∨
    ∃ t, lineRequestAt l { s with choices := s.choices + 1 } = some t ∧
      (beforeClaim l s = { s with choices := s.choices + 1 } ∨ beforeClaim l s = t) := by
  unfold beforeClaim
  simp only
  split
  next h => exact .inl ⟨h, rfl⟩
  next t h =>
    refine .inr ⟨t, h, ?_⟩
    split
    · exact .inr rfl
    · exact .inl rfl

theorem beforeClaim_frame (l : LineNo) (s : State) :
    beforeClaim l s =
      { s with
        lines := (beforeClaim l s).lines
        port := (beforeClaim l s).port
        manager := (beforeClaim l s).manager
        choices := (beforeClaim l s).choices } := by
  obtain ⟨-, h⟩ | ⟨t, ht, h | h⟩ := beforeClaim_cases l s
  · rw [h]
  · rw [h]
  · rw [h, lineRequestAt_frame ht]

/-- No line request is in progress. -/
theorem beforeClaim_of_none {s : State} (hd : requestOf driveLineCode s = none) (hc : requestOf 23 s = none)
    (hs : requestOf 24 s = none) (l : LineNo) : beforeClaim l s = s := by
  obtain ⟨-, h⟩ | ⟨t, ht, -⟩ := beforeClaim_cases l s
  · exact h
  · obtain ⟨f, _, hf, -⟩ | ⟨f, _, _, ⟨hf, -⟩ | ⟨hf, -⟩, -⟩ := lineRequestAt_cases ht
    · exact absurd (requestOf_of_inProgress (s := s) hf) (by rw [hd]; simp)
    · exact absurd (requestOf_of_inProgress (s := s) hf) (by rw [hc]; simp)
    · exact absurd (requestOf_of_inProgress (s := s) hf) (by rw [hs]; simp)

/-! ### Firings and walks -/

theorem fire_frame (sp : Span) (d : Travel) (parts : List Stretch) (i : SlotNo) (r : TripRecord) (s : State) :
    fire sp d parts i r s =
      { s with
        lines := (fire sp d parts i r s).lines
        store := (fire sp d parts i r s).store
        port := (fire sp d parts i r s).port
        manager := (fire sp d parts i r s).manager
        choices := (fire sp d parts i r s).choices } := by
  simp only [fire, setStore]
  rw [claimArrives_frame, beforeClaim_frame]

theorem store_fire (sp : Span) (d : Travel) (parts : List Stretch) (i : SlotNo) (r : TripRecord) (s : State) :
    (fire sp d parts i r s).store = fireAtStore sp d parts i r s.store := by
  simp only [fire, setStore]
  rw [claimArrives_frame, beforeClaim_frame]

/-- A met record is passed, or is LIVE and ARMED and fires (R94). -/
theorem meet_cases (sp : Span) (d : Travel) (parts : List Stretch) (s : State) (i : SlotNo) :
    meet sp d parts s i = s ∨
    ∃ r, liveAt s.store i = some r ∧ fires s.gates d r = true ∧ meet sp d parts s i = fire sp d parts i r s := by
  unfold meet
  split
  next r hr =>
    split
    next hf => exact .inr ⟨r, hr, hf, rfl⟩
    next => exact .inl rfl
  next => exact .inl rfl

/-- What holds before a walk and is kept by every firing of an ARMED record holds after the walk. -/
theorem walk_induction {P : State → Prop} (n : AxisNo) (sp : Span) (p p' : Int) (s : State) (h0 : P s)
    (hstep : ∀ (t : State) (d : Travel) (i : SlotNo) (r : TripRecord), P t → travelOf sp p p' = some d →
      i ∈ metSet s.store n d (crossed sp d p p') → liveAt t.store i = some r → fires t.gates d r = true →
      P (fire sp d (crossed sp d p p') i r t)) :
    P (walk n sp p p' s) := by
  unfold walk
  split
  · exact h0
  next d hd =>
    simp only
    generalize hm : metSet s.store n d (crossed sp d p p') = met
    have hsub : ∀ i ∈ met, i ∈ metSet s.store n d (crossed sp d p p') := by rw [hm]; exact fun _ h => h
    clear hm
    induction met generalizing s with
    | nil => exact h0
    | cons i met ih =>
      have key : ∀ (l : List SlotNo) (t : State), P t → (∀ j ∈ l, j ∈ metSet s.store n d (crossed sp d p p')) →
          P (l.foldl (meet sp d (crossed sp d p p')) t) := by
        intro l
        induction l with
        | nil => intro t ht _; exact ht
        | cons j l ihl =>
          intro t ht hl
          refine ihl _ ?_ fun k hk => hl k (List.mem_cons_of_mem _ hk)
          rcases meet_cases sp d (crossed sp d p p') t j with h | ⟨r, hr, hf, h⟩ <;> rw [h]
          · exact ht
          · exact hstep t d j r ht hd (hl j List.mem_cons_self) hr hf
      exact key (i :: met) s h0 hsub

theorem walk_frame (n : AxisNo) (sp : Span) (p p' : Int) (s : State) :
    walk n sp p p' s =
      { s with
        lines := (walk n sp p p' s).lines
        store := (walk n sp p p' s).store
        port := (walk n sp p p' s).port
        manager := (walk n sp p p' s).manager
        choices := (walk n sp p p' s).choices } := by
  refine walk_induction (P := fun t => t =
    { s with lines := t.lines, store := t.store, port := t.port, manager := t.manager, choices := t.choices }) n sp p p' s rfl ?_
  intro t d i r ht _ _ _ _
  rw [fire_frame, ht]

/-- Without a line request in progress a walk touches the lines and the store alone. -/
theorem walk_of_none {s : State} (hd : requestOf driveLineCode s = none) (hc : requestOf 23 s = none)
    (hs : requestOf 24 s = none) (n : AxisNo) (sp : Span) (p p' : Int) :
    walk n sp p p' s =
      { s with lines := (walk n sp p p' s).lines, store := (walk n sp p p' s).store } := by
  refine walk_induction (P := fun t => t = { s with lines := t.lines, store := t.store }) n sp p p' s rfl ?_
  intro t d i r ht _ _ _ _
  obtain ⟨ls, st, rfl⟩ : ∃ ls st, t = { s with lines := ls, store := st } := ⟨_, _, ht⟩
  have hd' : requestOf driveLineCode { s with lines := ls, store := st } = none := hd
  have hc' : requestOf 23 { s with lines := ls, store := st } = none := hc
  have hs' : requestOf 24 { s with lines := ls, store := st } = none := hs
  simp only [fire, beforeClaim_of_none hd' hc' hs', claimArrives_of_none hd']
  rfl

theorem positionUpdate_frame (n : AxisNo) (p' : Int) (s : State) :
    positionUpdate n p' s =
      { s with
        axes := put s.axes n { s.axes[n] with position := p' }
        lines := (positionUpdate n p' s).lines
        store := (positionUpdate n p' s).store
        port := (positionUpdate n p' s).port
        manager := (positionUpdate n p' s).manager
        choices := (positionUpdate n p' s).choices } := by
  simp only [positionUpdate, setStore, setAxis]
  rw [walk_frame]

theorem axes_positionUpdate (n : AxisNo) (p' : Int) (s : State) :
    (positionUpdate n p' s).axes = put s.axes n { s.axes[n] with position := p' } := by
  rw [positionUpdate_frame]

end Sys2Proof.Machine
end

