-- ==== Sys2Proof/WellFormed.lean ====
section
/-! DEFINITION. Which commands the part's world can send. Every operand's range is in its type, but for the
length of a link reply. -/

namespace Sys2Proof

/-- The most bits one poll can clock in after the poll word: 120 of the sync search, the second sync bit, a
32-bit position word, ALARM, WARN and the check (R59, R61). -/
def longestReply : Nat := 163

/-- A link reply is no longer than one poll; every other command is well formed. -/
def Instr.WellFormed (c : Instr) : Bool :=
  match c with
  | .pollEnd _ reply => decide (reply.length ≤ longestReply)
  | .hardwareReset | .resetEnd | .transactionStart | .transactionEnd _ | .takeRequest | .unknown
  | .addTrip | .modifyTrip | .retireTrip | .holdTrip | .armTrip | .queryTrip | .scanAxis | .getBracket
  | .wipeStore | .readNotices | .ackNotices | .openBatch | .stagedAddTrip | .stagedModifyTrip
  | .stagedRetireTrip | .stagedHoldTrip | .stagedArmTrip | .commitBatch | .discardBatch | .configAxis
  | .unparkAxis | .establishAxis | .resumeAxis | .parkAxis | .axisStatus | .postPosition | .driveLine
  | .configLine | .lineStatus | .quadEdge _ _ _ | .indexEvent _ | .sampleTimerExpiry _ | .pollTimeout _
  | .dwellEnd _ | .pulseExpiry _ | .inhibitChange _ | .gateChange _ _ => true

end Sys2Proof
end

