-- ==== Sys2Proof/Tests/Slice0.lean ====
section
/-! SUPPORT. The model's own tests, with values from the spec's examples and tables, and for each statement with
hypotheses a witness that meets them together. -/

namespace Sys2Proof.Tests

set_option Elab.async false

open Sys2Proof Sys2Proof.Machine

/-! ### Building small states -/

/-- The state a command leaves. -/
def after (c : Instr) (s : State) : State :=
  match exec c s with
  | .next t => t
  | .fault _ | .refused _ => s

/-- A request frame with tag 90; its frame check is not looked at once it is in progress. -/
def request (code : Nat) (batch : Bool) (fields : List Byte) : Frame :=
  fill 32 0 ([BitVec.ofNat 8 code, 90, if batch then 1 else 0] ++ fields)

/-- `s` with `f` in progress. -/
def serving (f : Frame) (s : State) : State :=
  { s with manager := { s.manager with inProgress := some f } }

/-- The completion code and the first `n` bytes of the result of the last response part. -/
def lastReply (n : Nat) (s : State) : Option (Completion × List Nat) :=
  s.port.responseQueue.getLast?.map fun p => (p.completion, (p.result.toList.take n).map (·.toNat))

/-- What request `f`, completed by `c` on `s`, answers. -/
def reply (n : Nat) (c : Instr) (f : Frame) (s : State) : Option (Completion × List Nat) :=
  lastReply n (after c (serving f s))

/-- The host's fields of a record of axis 0 that SETs line 3. -/
def plain (position : Int) (state : RecordState) : TripFields :=
  { axis := 0, position, qualifier := .either, action := .set, line := 3, width := none, pitch := none, repeats := none,
    successor := none, gate := none, notify := .none, endMode := .keep, tag := 7, state }

/-- Slots 0 to 4: an ARMED record at 100; a DORMANT one at 200, which the ARMED one at 300 names; a SPENT one at 50; and a
RESERVED one of axis 1 at 500. Slot 5 is FREE with generation 3. -/
def demoStore : Store :=
  { slots :=
      fill 384 ⟨0, .free⟩
        [⟨0, .live { plain 100 .armed with }⟩,
          ⟨0, .live { plain 200 .dormant with predCount := 1 }⟩,
          ⟨0, .live { plain 300 .armed with successor := some ⟨1, 0⟩ }⟩,
          ⟨0, .live { plain 50 .spent with }⟩,
          ⟨0, .reserved { plain 500 .armed with axis := 1 }⟩,
          ⟨3, .free⟩]
    lists := put (Vector.replicate 8 []) 0 [0, 1, 2]
    occupancy := put (put (Vector.replicate 8 0) 0 4) 1 1 }

/-- A HOST axis in TRACKING at 150. -/
def hostAxis : Axis :=
  { config := { source := .host }, state := .tracking, position := 150 }

/-- The demonstration store, with axis 0 tracking and a batch open that holds the ADD of slot 4. -/
def demo : State :=
  { axes := put (Vector.replicate 8 {}) 0 hostAxis
    store := demoStore
    manager := { batchOpen := true, staging := [⟨.add { plain 500 .armed with axis := 1 } ⟨4, 0⟩, 1⟩] } }

/-- The demonstration state with an axis replaced. -/
def demoWith (n : AxisNo) (a : Axis) : State :=
  setAxis n a demo

/-- The slot's record after, if it is LIVE. -/
def recordAfter (c : Instr) (s : State) (i : SlotNo) : Option TripRecord :=
  liveAt (after c s).store i

/-! ### What the world may send, and words -/

theorem test_wellFormed_longest_reply : (Instr.pollEnd 0 (List.replicate 163 false)).WellFormed = true := by decide +kernel

theorem test_wellFormed_refuses_a_longer_reply : (Instr.pollEnd 0 (List.replicate 164 false)).WellFormed = false := by
  decide +kernel

/-- No row of the table has bits. -/
theorem test_no_word_spells_a_command : decodeTableWord 8 1 = none := rfl

/-! ### Checks -/

/-- The worked check of section 3.3.6. -/
theorem test_crc8_example : crc8 [false, false, false, false, false, false, false, true, false, false] = 0x1C#8 := by decide

/-- The frame check of an all-zero frame is not zero, so a line that stays low carries no frame (R202). -/
theorem test_zero_frame_fails_its_check : frameCheckPasses (Vector.replicate 32 0) = false := by decide +kernel

/-! ### Reset and the command port -/

theorem test_hardwareReset_sets_the_reset_flag : (after .hardwareReset demo).port.resetFlag = true := by decide +kernel

theorem test_resetEnd : (after .resetEnd (after .hardwareReset demo)).resetLow = false := by decide +kernel

/-- The header of the first transaction of section 10.7: free 8, waiting 0, flags: reset flag, outcome NOP, tag 0. -/
theorem test_transactionStart_first_header :
    (after .transactionStart State.reset).port.transaction.map (fun t => (t.outgoing.toList.take 5).map (·.toNat))
      = some [8, 0, 2, 1, 0] := by
  decide +kernel

/-- The bits of a frame in the order of shifting. -/
def bitsOf (f : Frame) : List Bool :=
  f.toList.flatMap byteBits

/-- A sealed QUERY-TRIP with tag 11. -/
def queryFrame : Frame :=
  sealFrame ([6, 11, 0] ++ List.replicate 27 0)

/-- The state at the end of a transaction that sends `bits`. -/
def transacted (bits : List Bool) (s : State) : State :=
  after (.transactionEnd bits) (after .transactionStart s)

/-- Transaction 2 of section 10.7: 31 bytes of a QUERY-TRIP. -/
theorem test_transactionEnd_short :
    ((transacted ((bitsOf queryFrame).take 248) State.reset).port.lastOutcome,
      (transacted ((bitsOf queryFrame).take 248) State.reset).port.lastTag) = (.badLength, 11) := by
  decide +kernel

/-- Transaction 4 of section 10.7: the whole QUERY-TRIP. -/
theorem test_transactionEnd_accepted :
    ((transacted (bitsOf queryFrame) State.reset).port.requestQueue,
      (transacted (bitsOf queryFrame) State.reset).port.resetFlag) = ([queryFrame], false) := by
  decide +kernel

/-- `s` with `f` waiting and `n` parts in the response queue. -/
def waiting (f : Frame) (n : Nat) (s : State) : State :=
  { s with port := { s.port with requestQueue := [f], responseQueue := List.replicate n (partOf f .done 1 1 []) } }

/-- A QUERY-TRIP needs two free places. -/
theorem test_takeRequest_waits : (after .takeRequest (waiting queryFrame 7 demo)).manager.inProgress = none := by
  decide +kernel

theorem test_takeRequest_takes :
    (after .takeRequest (waiting queryFrame 6 demo)).manager.inProgress = some queryFrame := by
  decide +kernel

theorem test_unknown : reply 1 .unknown (request 25 true []) demo = some (.unknown, [0]) := by decide +kernel

/-! ### Record requests -/

/-- An ADD-TRIP for axis 0 at 100 takes the lowest FREE slot, 5, with its generation 3: handle 0143H. -/
def addRequest (batch : Bool) (successorPresent : Bool) (successor : Nat) : Frame :=
  request 1 batch
    (bitsByte [false, false, false, successorPresent, false] ++ be8 0 ++ be32 100 ++ halves 2 0 ++ be8 3 ++ be16 0 ++ be32 0
      ++ be16 0 ++ be16 successor ++ be8 0 ++ halves 0 0 ++ be16 9 ++ be8 1)

theorem test_addTrip_handle : reply 2 .addTrip (addRequest false false 0) demo = some (.done, [1, 67]) := by decide +kernel

/-- The newest record stands last among its equals (R30). -/
theorem test_addTrip_place : (after .addTrip (serving (addRequest false false 0) demo)).store.lists[0] = [0, 5, 1, 2] := by
  decide +kernel

/-- A MODIFY-TRIP with the change entries `e` of bytes 5 to 9, and the same values for every field that may be SET. -/
def modifyRequest (batch : Bool) (handle : Nat) (e : List Byte) (position : Int) (successor : Nat) : Frame :=
  request 2 batch
    (be16 handle ++ e ++ be32 position ++ halves 0 1 ++ be8 4 ++ be16 200 ++ be32 10 ++ be16 2 ++ be16 successor
      ++ halves 1 0 ++ halves 3 1 ++ be16 8)

/-- SET of position alone: entry 2 of byte 5. -/
def setPosition : List Byte := [0x04, 0, 0, 0, 0]

/-- SET of the successor alone: entry 9, in byte 7. -/
def setSuccessorEntry : List Byte := [0, 0, 0x10, 0, 0]

/-- REMOVE of the successor alone. -/
def removeSuccessor : List Byte := [0, 0, 0x20, 0, 0]

theorem test_modifyTrip_replaces :
    (after .modifyTrip (serving (modifyRequest false 0 setPosition 250 0) demo)).store.lists[0] = [1, 0, 2] := by
  decide +kernel

/-- A record may not name itself (R5). -/
theorem test_modifyTrip_self :
    reply 1 .modifyTrip (modifyRequest false 0 setSuccessorEntry 0 0) demo = some (.badLink, [0]) := by
  decide +kernel

theorem test_retireTrip_in_use : reply 2 .retireTrip (request 3 false (be16 64)) demo = some (.inUse, [0, 1]) := by
  decide +kernel

theorem test_retireTrip_frees :
    (after .retireTrip (serving (request 3 false (be16 128)) demo)).store.slots[2] = ⟨1, .free⟩ := by
  decide +kernel

theorem test_holdTrip : reply 1 .holdTrip (request 4 false (be16 64)) demo = some (.done, [0]) := by decide +kernel

theorem test_armTrip :
    (recordAfter .armTrip (serving (request 5 false (be16 64)) demo) 1).map (·.state) = some .armed := by
  decide +kernel

/-- The second part: presence of the successor, handle (2, 0), tag 7, position 300, ARMED, successor (1, 0). -/
theorem test_queryTrip :
    reply 14 .queryTrip (request 6 false (be16 128)) demo = some (.done, [2, 0, 128, 0, 7, 0, 0, 1, 44, 1, 0, 0, 0, 64]) := by
  decide +kernel

/-- SCAN-AXIS UP from 101, one record: slot 1 at 200, DORMANT, tag 7. -/
theorem test_scanAxis :
    reply 20 .scanAxis (request 7 false (be8 0 ++ be32 101 ++ be8 0 ++ be8 1 ++ be16 0)) demo
      = some (.done, [1, 0, 64, 0, 0, 0, 200, 0, 0, 7, 0, 0, 0, 0, 0, 0, 0, 0, 0, 1]) := by
  decide +kernel

/-- The axis stands at 150, between slot 0 at 100 and slot 1 at 200. -/
theorem test_getBracket :
    reply 17 .getBracket (request 8 false (be8 0)) demo
      = some (.done, [3, 0, 0, 0, 150, 0, 0, 0, 0, 0, 100, 0, 64, 0, 0, 0, 200]) := by
  decide +kernel

/-- The rotary list of section 2.3.1: F at 350 in slot 0 and G at 3,100 in slot 1. -/
def rotaryStore : Store :=
  { slots :=
      put (put (Vector.replicate 384 ⟨0, .free⟩) 0 ⟨0, .live { plain 350 .armed with axis := 5 }⟩)
        1 ⟨0, .live { plain 3100 .armed with axis := 5 }⟩
    lists := put (Vector.replicate 8 []) 5 [0, 1]
    occupancy := put (Vector.replicate 8 0) 5 2 }

theorem test_bracket_circular :
    (lowerNeighbour rotaryStore 5 (.rotary 3600) 0, upperNeighbour rotaryStore 5 (.rotary 3600) 3100) = (some 1, some 0) := by
  decide +kernel

theorem test_wipeStore : reply 2 .wipeStore (request 9 false []) demo = some (.done, [0, 5]) := by decide +kernel

/-! ### Notices -/

/-- Records V and W of section 7.7, in slots 40 and 41. -/
def releaseStore : Store :=
  { slots :=
      put (put (Vector.replicate 384 ⟨0, .free⟩)
        40 ⟨1, .live { plain 0 .spent with
          endMode := .release, successor := some ⟨41, 0⟩, fireCount := 1, pending := ⟨false, true, false⟩ }⟩)
        41 ⟨0, .live { plain 0 .spent with endMode := .release, fireCount := 1, predCount := 1 }⟩
    occupancy := put (Vector.replicate 8 0) 0 2
    axisNotices := put (Vector.replicate 8 ⟨false, none, none⟩) 6 ⟨false, some .slew, none⟩
    attention := true }

/-- The demonstration state with that store. -/
def noticeState : State :=
  { demo with store := releaseStore, manager := ⟨none, false, []⟩ }

/-- Slot 3 of section 7.7: FIRED and ARMED, handle (3, 2), tag 7, fire count 12. -/
theorem test_readNotices_record :
    (recordEntryItem ⟨3, 2⟩ { plain 0 .armed with fireCount := 12, pending := ⟨true, false, false⟩ }).map (·.toNat)
      = [65, 0, 194, 0, 7, 0, 12] := by
  decide

/-- Axis 6 of section 7.7: SUSPECT with cause SLEW. -/
theorem test_readNotices_axis :
    (axisEntries releaseStore).map (fun e => (e.1, e.2.map (·.toNat))) = [(6, [16, 6, 16, 0, 0, 0, 0])] := by
  decide +kernel

/-- The third acknowledgement of section 7.7 releases V, and W behind it. -/
theorem test_ackNotices_release :
    reply 3 .ackNotices (request 11 false (be8 1 ++ be16 (64 * 40 + 1) ++ be8 2)) noticeState = some (.done, [2, 0, 1]) := by
  decide +kernel

theorem test_ackNotices_chain :
    ((after .ackNotices (serving (request 11 false (be8 1 ++ be16 (64 * 40 + 1) ++ be8 2)) noticeState)).store.slots[40],
      (after .ackNotices (serving (request 11 false (be8 1 ++ be16 (64 * 40 + 1) ++ be8 2)) noticeState)).store.slots[41])
      = (⟨2, .free⟩, ⟨1, .free⟩) := by
  decide +kernel

/-! ### Batches -/

theorem test_openBatch_open_already : reply 1 .openBatch (request 12 false []) demo = some (.batchOpen, [0]) := by
  decide +kernel

/-- Index 1 and the handle of slot 5, generation 3. -/
theorem test_stagedAddTrip : reply 3 .stagedAddTrip (addRequest true false 0) demo = some (.staged, [1, 1, 67]) := by
  decide +kernel

theorem test_stagedModifyTrip :
    reply 1 .stagedModifyTrip (modifyRequest true 0 setPosition 5 0) demo = some (.staged, [1]) := by
  decide +kernel

theorem test_stagedRetireTrip : reply 1 .stagedRetireTrip (request 3 true (be16 64)) demo = some (.staged, [1]) := by
  decide +kernel

theorem test_stagedHoldTrip : reply 1 .stagedHoldTrip (request 4 true (be16 64)) demo = some (.staged, [1]) := by
  decide +kernel

theorem test_stagedArmTrip : reply 1 .stagedArmTrip (request 5 true (be16 64)) demo = some (.staged, [1]) := by
  decide +kernel

theorem test_commitBatch :
    (reply 1 .commitBatch (request 13 false []) demo,
      (after .commitBatch (serving (request 13 false []) demo)).store.lists[1]) = (some (.done, [1]), [4]) := by
  decide +kernel

/-- The batch of section 9.9: a RETIRE of slot 1 whose record slot 0 comes to name in the entry before it. -/
theorem test_commitBatch_fails_on_its_own_entry :
    reply 3 .commitBatch (request 13 false [])
        { demo with
          manager := { demo.manager with
            staging :=
              [⟨.modify ⟨2, 0⟩
                  ⟨none, none, none, none, .keep, .keep, .keep, .set ⟨0, 0⟩, .keep, none, none, none⟩, 1⟩,
                ⟨.retire ⟨0, 0⟩, 2⟩] } }
      = some (.commitFailed, [1, 2, 7]) := by
  decide +kernel

/-- One entry, one reserved slot. -/
theorem test_discardBatch : reply 3 .discardBatch (request 14 false []) demo = some (.done, [1, 0, 1]) := by decide +kernel

/-! ### Axes -/

/-- A CONFIG-AXIS with the values given, and W = 24, 250 µs, 3 failures. -/
def configRequest (axis : Nat) (source method : Nat) (modulus : Option Nat) (r o : Int) (quota : Nat) : Frame :=
  request 15 false
    (be8 axis ++ halves source 0 ++ be8 (if modulus.isSome then 1 else 0) ++ be32 (modulus.getD 0) ++ be8 method ++ be32 r
      ++ be32 o ++ be16 0 ++ be16 quota ++ be8 24 ++ be16 250 ++ be8 3)

/-- The axis of section 4.10. -/
def indexConfig : AxisConfig :=
  { span := .rotary 4000, method := .index, refValue := 3990, offset := 20 }

theorem test_configAxis :
    (after .configAxis (serving (configRequest 2 0 1 (some 4000) 3990 20 0) demo)).axes[2].config = indexConfig := by
  decide +kernel

theorem test_configAxis_not_parked : reply 1 .configAxis (configRequest 0 0 0 none 0 0 0) demo = some (.wrongState, [0]) := by
  decide +kernel

/-- UNPARK-AXIS with method NONE references at R + O, here 0: TRACKING. -/
theorem test_unparkAxis : reply 5 .unparkAxis (request 16 false (be8 1)) demo = some (.done, [2, 0, 0, 0, 0]) := by
  decide +kernel

/-- The axis of section 4.10 at 30 before its ESTABLISH-AXIS. -/
def unreferencedAxis : Axis :=
  { config := indexConfig, state := .unreferenced, position := 30, decoderRunning := true }

theorem test_establishAxis_index :
    reply 5 .establishAxis (request 17 false (be8 2 ++ be32 0)) (demoWith 2 unreferencedAxis)
      = some (.accepted, [1, 0, 0, 0, 30]) := by
  decide +kernel

/-- The second index event of section 4.10: 4,010 reduced modulo 4,000. -/
theorem test_indexEvent :
    (after (.indexEvent 2) (demoWith 2 { unreferencedAxis with seeking := true })).axes[2].position = 10 := by
  decide +kernel

theorem test_resumeAxis :
    reply 1 .resumeAxis (request 18 false (be8 0)) (demoWith 0 { hostAxis with state := .suspect }) = some (.done, [2]) := by
  decide +kernel

theorem test_parkAxis : reply 5 .parkAxis (request 19 false (be8 0)) demo = some (.done, [0, 0, 0, 0, 150]) := by
  decide +kernel

/-- TRACKING, cause NONE, 150, not SEEKING, no WARN, 0 failures, 4 LIVE records, 0 RESERVED. -/
theorem test_axisStatus :
    reply 12 .axisStatus (request 20 false (be8 0)) demo = some (.done, [32, 0, 0, 0, 150, 0, 0, 0, 0, 4, 0, 0]) := by
  decide +kernel

/-- A post of 300 fires slot 2 at 300, which arms slot 1; slot 1 at 200 was DORMANT when the walk met it. -/
theorem test_postPosition_fires :
    ((recordAfter .postPosition (serving (request 21 false (be8 0 ++ be32 300)) demo) 2).map (·.fireCount),
      (recordAfter .postPosition (serving (request 21 false (be8 0 ++ be32 300)) demo) 1).map fun r => (r.state, r.fireCount))
      = (some 1, some (.armed, 0)) := by
  decide +kernel

theorem test_postPosition_slew :
    reply 5 .postPosition (request 21 false (be8 0 ++ be32 300))
      (demoWith 0 { hostAxis with config := { hostAxis.config with slewGuard := 149 } }) = some (.done, [3, 0, 0, 1, 44]) := by
  decide +kernel

/-! ### Sources -/

/-- The QUAD axis of section 3.2.1 with pair and position as given. -/
def quadAxis (pair : Level × Level) (position : Int) : Axis :=
  { xa := pair.1, xb := pair.2, state := .tracking, position, decoderRunning := true, lastPair := pair }

/-- The fifth change of section 3.2.1. -/
theorem test_quadEdge_backward :
    (after (.quadEdge 3 .low .high) (demoWith 3 (quadAxis (.low, .low) 1004))).axes[3].position = 1003 := by
  decide +kernel

/-- The sixth change of section 3.2.1. -/
theorem test_quadEdge_decode_error :
    ((after (.quadEdge 3 .high .low) (demoWith 3 (quadAxis (.low, .high) 1003))).axes[3].state,
      (after (.quadEdge 3 .high .low) (demoWith 3 (quadAxis (.low, .high) 1003))).axes[3].lastCause) = (.suspect, .decode) := by
  decide +kernel

/-- The axis of section 3.3.6, its poll in flight. -/
def linkAxis : Axis :=
  { config := { source := .link, wordWidth := 8 }, state := .tracking, sampleNext := some 2500, poll := some [] }

theorem test_sampleTimerExpiry :
    ((after (.sampleTimerExpiry 6) (demoWith 6 { linkAxis with poll := none })).axes[6].sampleNext,
      (after (.sampleTimerExpiry 6) (demoWith 6 { linkAxis with poll := none })).axes[6].poll) = (some 5000, some []) := by
  decide +kernel

/-- The third failure of section 3.3.7. -/
theorem test_pollTimeout_link_lost :
    ((after (.pollTimeout 6) (demoWith 6 { linkAxis with failures := 2 })).axes[6].state,
      (after (.pollTimeout 6) (demoWith 6 { linkAxis with failures := 2 })).axes[6].failures) = (.faulted, 0) := by
  decide +kernel

/-- The reply of section 3.3.6 after its sync: raw word 1, WARN as given, check 1CH. -/
def replyBits (warn : Bool) : List Bool :=
  [true, false] ++ [false, false, false, false, false, false, false, true] ++ [false, warn] ++ byteBits 0x1C#8

theorem test_pollEnd_good : (after (.pollEnd 6 (replyBits false)) (demoWith 6 linkAxis)).axes[6].position = 1 := by
  decide +kernel

theorem test_pollEnd_bad : (after (.pollEnd 6 (replyBits true)) (demoWith 6 linkAxis)).axes[6].failures = 1 := by
  decide +kernel

/-! ### Walks -/

/-- The wrap of section 2.5.2: 40 counts in two parts. -/
theorem test_crossed_wrap :
    (signedTravel (.rotary 3600) 3580 20, crossed (.rotary 3600) .rising 3580 20) = (40, [⟨3580, 3599⟩, ⟨-1, 20⟩]) := by
  decide

/-- H of section 2.5.2 lands at 10 in the remaining interval. -/
theorem test_overtaken :
    overtakes .rising (crossed (.rotary 3600) .rising 3580 20) 3590 (reduce (.rotary 3600) (nextPosition .rising 3590 20)) = true := by
  decide

/-! ### Lines -/

/-- A DRIVE-LINE of line 3 with an action and, for a PULSE, a width. -/
def driveRequest (action : Nat) (width : Option Nat) : Frame :=
  request 22 false (bitsByte [width.isSome] ++ be8 3 ++ be8 action ++ be16 (width.getD 0))

/-- The DRIVE-LINE at 50 µs of section 6.9, behind a pulse that would end at 200: ACTIVE, 100 left, inhibit released. -/
theorem test_driveLine_pulse :
    reply 5 .driveLine (driveRequest 3 (some 100))
        (setLine 3 { level := .active, pulseEnd := some 2000, dwellStart := some 0 } { demo with now := 500 })
      = some (.done, [1, 0, 0, 100, 1]) := by
  decide +kernel

/-- The step at 170 µs of section 6.9: under inhibit the pin is high. -/
theorem test_configLine_pin :
    tripPin (after .configLine (serving (request 23 false (be8 3 ++ be8 1))
      (setLine 3 { level := .active, dwellStart := some 0 } { demo with now := 1700, inhn := .low }))) 3 = .high := by
  decide +kernel

/-- The LINE-STATUS at 120 µs of section 6.9: a pulse with 30 left, ACTIVE and HIGH-ACTIVE, inhibit asserted, pin low. -/
theorem test_lineStatus :
    reply 7 .lineStatus (request 24 false (be8 3))
        (setLine 3 { level := .active, pulseEnd := some 1500, dwellStart := some 500 } { demo with now := 1200, inhn := .low })
      = some (.done, [1, 0, 0, 30, 1, 0, 0]) := by
  decide +kernel

theorem test_dwellEnd :
    (after (.dwellEnd 3) (setLine 3 { claims := [⟨.set, none, false⟩], dwellStart := some 0 } demo)).lines[3].level = .active := by
  decide +kernel

theorem test_pulseExpiry :
    (after (.pulseExpiry 3) (setLine 3 { level := .active, pulseEnd := some 1500 } demo)).lines[3].level = .inactive := by
  decide +kernel

theorem test_inhibitChange : (after (.inhibitChange .low) demo).inhn = .low := by decide +kernel

theorem test_gateChange : (after (.gateChange 2 .high) demo).gates[2] = .high := by decide +kernel

/-- Claim 18 of section 6.10 makes the driver apply claim 2 at once and sets dwell cut. -/
theorem test_arrive_full :
    (arrive 0 ⟨.clear, none, false⟩
      { level := .active, dwellStart := some 0, claims := ⟨.clear, none, false⟩ :: List.replicate 15 ⟨.set, none, false⟩ }).1.level
      = .inactive := by
  decide


/-! ### Witnesses

`witness_<Statement>`: concrete states and operands that meet the hypotheses of each clause together. -/

/-- The outcome is a next state. -/
def isNext (c : Instr) (s : State) : Bool :=
  match exec c s with
  | .next _ => true
  | .fault _ | .refused _ => false

theorem next_after {c : Instr} {s : State} (h : isNext c s = true) : exec c s = .next (after c s) := by
  unfold isNext at h
  unfold after
  split at h
  · simp_all
  · simp at h
  · simp at h

/-- The value of checks, if they pass. -/
def passes {α : Type} (v : Verdict α) : Option α :=
  match v with
  | .ok x => some x
  | .error _ => none

/-- The refusal of checks, as a completion code and items, if they fail. -/
def refusal {α : Type} (v : Verdict α) : Option Refused :=
  match v with
  | .ok _ => none
  | .error e => some e

theorem of_passes {α : Type} {v : Verdict α} {x : α} (h : passes v = some x) : v = .ok x := by
  cases v <;> simp_all [passes]

theorem passes_exists {α : Type} {v : Verdict α} (h : (passes v).isSome = true) : ∃ x, v = .ok x := by
  cases v <;> simp_all [passes]

theorem refusal_exists {α : Type} {v : Verdict α} (h : (refusal v).isSome = true) : ∃ e, v = .error e := by
  cases v <;> simp_all [refusal]

theorem of_refusal {α : Type} {v : Verdict α} {e : Refused} (h : refusal v = some e) : v = .error e := by
  cases v <;> simp_all [refusal]

/-- Each slot's record, LIVE or RESERVED as `live` says, passes a check of its slot's number, its generation and itself. -/
def allRecords (live : Bool) (st : Store) (p : SlotNo → Generation → TripRecord → Bool) : Bool :=
  st.slots.toList.zipIdx.all fun x =>
    match x.1.content with
    | .live r => !live || p (Fin.ofNat 384 x.2) x.1.gen r
    | .reserved r => live || p (Fin.ofNat 384 x.2) x.1.gen r
    | .free => true

theorem slot_mem (st : Store) (i : SlotNo) : (st.slots[i], i.val) ∈ st.slots.toList.zipIdx := by
  rw [List.mk_mem_zipIdx_iff_getElem?]
  simp

theorem ofNat_val (i : SlotNo) : Fin.ofNat 384 i.val = i := by
  ext
  simp [Fin.ofNat, Nat.mod_eq_of_lt i.isLt]

theorem live_all {st : Store} {p : SlotNo → Generation → TripRecord → Bool} (h : allRecords true st p = true) (i : SlotNo)
    (r : TripRecord) (hr : liveAt st i = some r) : p i st.slots[i].gen r = true := by
  have hp := List.all_eq_true.mp h _ (slot_mem st i)
  unfold liveAt at hr
  split at hr
  · next hc =>
    cases hr
    simpa only [hc, ofNat_val, Bool.not_true, Bool.false_or] using hp
  · cases hr
  · cases hr

theorem reserved_all {st : Store} {p : SlotNo → Generation → TripRecord → Bool} (h : allRecords false st p = true) (i : SlotNo)
    (r : TripRecord) (hr : st.slots[i].content = .reserved r) : p i st.slots[i].gen r = true := by
  have hp := List.all_eq_true.mp h _ (slot_mem st i)
  simpa only [hr, ofNat_val, Bool.false_or] using hp

theorem witness_StepRunsTheFrontCommand :
    ({ demo with pending := [.resetEnd, .takeRequest] } : State).pending = [.resetEnd, .takeRequest] ∧
    demo.pending = [] := by
  decide +kernel

theorem witness_DuringResetOnlyTheInputPinsFollow :
    let s := after .hardwareReset demo
    s.resetLow = true ∧ s.port.transaction = none ∧ Instr.quadEdge 0 .high .low ≠ .resetEnd ∧
    Instr.quadEdge 0 .high .low ≠ .hardwareReset ∧
    exec (.quadEdge 0 .high .low) s = .next (after (.quadEdge 0 .high .low) s) :=
  ⟨by decide +kernel, by decide +kernel, by decide, by decide, next_after (by decide +kernel)⟩

theorem witness_TransactionStartFixesTheOutgoingFrame :
    (State.reset.scsn = .high ∧ State.reset.resetLow = false ∧ State.reset.port.responseQueue = []) ∧
    ((waiting queryFrame 8 demo).scsn = .high ∧ (waiting queryFrame 8 demo).resetLow = false ∧
      (waiting queryFrame 8 demo).port.responseQueue ≠ []) := by
  decide +kernel

theorem witness_TransactionEndJudgesTheFrame :
    (∃ tr, (after .transactionStart State.reset).port.transaction = some tr) ∧ State.reset.port.transaction = none :=
  ⟨Option.isSome_iff_exists.mp (by decide +kernel), by decide +kernel⟩

/-- A request in progress; an empty request queue; and 0 to 8 response parts waiting. -/
theorem witness_TakeRequestWaitsForRoom :
    (serving queryFrame (waiting queryFrame 0 demo)).manager.inProgress ≠ none ∧ demo.port.requestQueue = [] ∧
    ∀ k ≤ 8, (waiting queryFrame k demo).resetLow = false ∧
      (waiting queryFrame k demo).port.requestQueue = [queryFrame] ∧
      (waiting queryFrame k demo).manager.inProgress = none :=
  ⟨by decide +kernel, rfl, fun _ _ => ⟨rfl, rfl, rfl⟩⟩

/-- The boundary codes 25 and 255, every row that cannot be staged, and axis 8 for every row that names an axis. -/
theorem witness_ManagerChecksCodeAndBatchFlag :
    (∀ k ∈ [25, 255], (serving (request k false []) demo).resetLow = false ∧
      (serving (request k false []) demo).manager.inProgress = some (request k false []) ∧ 25 ≤ u8 (request k false []) 0) ∧
    (∀ k ∈ [6, 7, 8, 9, 10, 11, 12, 13, 14, 15, 16, 17, 18, 19, 20, 21, 22, 23, 24],
      InProgress (serving (request k true []) demo) (request k true []) k ∧ batchFlag (request k true []) = true) ∧
    ∀ k ∈ [7, 8, 15, 16, 17, 18, 19, 20, 21],
      InProgress (serving (request k false (be8 8)) demo) (request k false (be8 8)) k ∧
      batchFlag (request k false (be8 8)) = false ∧ u8 (request k false (be8 8)) 3 = 8 := by
  decide +kernel

theorem witness_OnlyItsOwnEventsMoveTheQueues :
    let s := serving (request 20 false [0]) demo
    Instr.axisStatus ≠ .hardwareReset ∧ (∀ sdi, Instr.axisStatus ≠ .transactionEnd sdi) ∧ Instr.axisStatus ≠ .takeRequest ∧
    exec .axisStatus s = .next (after .axisStatus s) :=
  ⟨by decide, fun _ => by simp, by decide, next_after (by decide +kernel)⟩

theorem witness_RefusedRequestChangesNothing :
    let f := request 3 false (be16 64)
    let s := serving f demo
    let p := partOf f .inUse 1 1 (be16 1)
    exec .retireTrip s = .next (after .retireTrip s) ∧
    (after .retireTrip s).port.responseQueue = s.port.responseQueue ++ [p] ∧
    p.completion ≠ .done ∧ p.completion ≠ .accepted ∧ p.completion ≠ .staged ∧ p.completion ≠ .commitFailed :=
  ⟨next_after (by decide +kernel), by decide +kernel, by decide, by decide, by decide, by decide⟩

/-- Slot 384, just above the range; slot 383, FREE; another generation of slot 0; and the RESERVED slot 4. -/
theorem witness_TargetHandleIsResolvedFirst :
    (∀ h ∈ [64 * 384, 64 * 383, 1, 64 * 4], ∀ k ∈ [2, 3, 4, 5, 6],
      InProgress (serving (request k false (be16 h)) demo) (request k false (be16 h)) k ∧
      batchFlag (request k false (be16 h)) = false ∧ u16 (request k false (be16 h)) 3 = h) ∧
    384 ≤ 64 * 384 / 64 ∧ demoStore.slots[(383 : SlotNo)].content = .free ∧
    demoStore.slots[(0 : SlotNo)].gen ≠ BitVec.ofNat 6 1 ∧ demoStore.slots[(4 : SlotNo)].gen = BitVec.ofNat 6 (64 * 4) ∧
    ∃ r, demoStore.slots[(4 : SlotNo)].content = .reserved r :=
  ⟨by decide +kernel, by decide, by decide +kernel, by decide +kernel, by decide +kernel, _, rfl⟩

/-- `s` with quota `q` on axis 0, which has 4 records. -/
def withQuota (q : Nat) (s : State) : State :=
  setAxis 0 { hostAxis with config := { hostAxis.config with quota := q } } s

/-- A store with no FREE slot. -/
def fullStore : Store :=
  { slots := Vector.replicate 384 ⟨0, .live { plain 100 .spent with }⟩
    occupancy := put (Vector.replicate 8 0) 0 384 }

theorem fullStore_full : ∀ i : SlotNo, fullStore.slots[i].content ≠ .free := by
  intro i
  simp [fullStore]

/-- What the ADD-TRIP of `addRequest` carries. -/
def addedFields (successor : Option Handle) : TripFields :=
  { plain 100 .armed with successor, tag := 9 }

/-- The demonstration state with `k` staged entries. -/
def stagedCount (k : Nat) : State :=
  { demo with manager := { demo.manager with staging := List.replicate k ⟨.arm ⟨0, 0⟩, 1⟩ } }

theorem addedFields_pass :
    ∀ q ∈ [4, 5],
      passes (readTripFields (fun n => (serving (addRequest false false 0) (withQuota q demo)).axes[n].config)
        (addRequest false false 0)) = some (addedFields none) ∧
      passes (readTripFields (fun n => (serving (addRequest true false 0) (withQuota q (stagedCount 23))).axes[n].config)
        (addRequest true false 0)) = some (addedFields none) := by
  decide +kernel

/-- The least axis that is refused, and the greatest that is not. -/
theorem witness_AddTripFieldsAreCheckedInOrder :
    8 ≤ u8 (request 1 false (be8 0 ++ be8 8)) 4 ∧ u8 (request 1 false (be8 0 ++ be8 7)) 4 = (7 : AxisNo).val := by
  decide +kernel

/-- An ADD-TRIP whose fields stand at the ends of their ranges: on a ROTARY axis of modulus 1,000 the position 999, the greatest line,
pitch, slot, gate and values of lists, and the least width and repeats. -/
def extremeRequest (place : Nat) (value : Byte) : Frame :=
  fill 32 0 ((request 1 false
    ([31] ++ be8 7 ++ be32 999 ++ halves 2 3 ++ be8 15 ++ be16 1 ++ be32 999 ++ be16 1 ++ be16 (64 * 383 + 63) ++ halves 3 1
      ++ halves 3 1 ++ be16 9 ++ be8 1)).toList.set place value)

/-- The byte and bit that a BAD_FIELD names, for a value just past the end of the range in one place of that frame (R157). -/
theorem test_addTrip_names_the_field :
    (∀ x ∈ [(4, 8, 4, 7), (8, 232, 5, 7), (9, 0x33, 9, 7), (9, 0x24, 9, 3), (10, 16, 10, 7), (12, 0, 11, 7), (9, 0x20, 11, 7),
        (16, 232, 13, 7), (18, 0, 17, 7), (19, 96, 19, 7), (21, 0x41, 21, 7), (21, 0x32, 21, 7), (22, 0x41, 22, 7),
        (22, 0x32, 22, 3), (25, 2, 25, 7)],
      refusal (readTripFields (fun _ => { span := .rotary 1000 }) (extremeRequest x.1 (BitVec.ofNat 8 x.2.1))) =
        some (badField x.2.2.1 x.2.2.2)) ∧
    (passes (readTripFields (fun _ => { span := .rotary 1000 }) (extremeRequest 4 7))).isSome = true := by
  decide +kernel

/-- A field that fails its check (axis 8); the fields pass their checks; a successor in FREE slot 5; no FREE slot; the quota at its
bound and just above it. -/
theorem witness_AddTripOutcome :
    let f := addRequest false false 0
    let g := addRequest false true (64 * 5 + 3)
    let b := request 1 false (be8 0 ++ be8 8)
    (InProgress (serving b demo) b 1 ∧ batchFlag b = false ∧
      ∃ e, readTripFields (fun n => (serving b demo).axes[n].config) b = .error e) ∧
    (InProgress (serving f demo) f 1 ∧ batchFlag f = false) ∧
    (∀ q ∈ [4, 5], readTripFields (fun n => (serving f (withQuota q demo)).axes[n].config) f = .ok (addedFields none)) ∧
    (InProgress (serving g demo) g 1 ∧ batchFlag g = false) ∧
    readTripFields (fun n => (serving g demo).axes[n].config) g = .ok (addedFields (some ⟨5, 3⟩)) ∧
    badSuccessor demoStore (some ⟨5, 3⟩) ∧ (∀ st, ¬ badSuccessor st none) ∧
    (∀ i : SlotNo, fullStore.slots[i].content ≠ .free) ∧
    IsLowestFree demoStore 5 ∧
    ((withQuota 4 demo).axes[(0 : AxisNo)].config.quota ≠ 0 ∧
      (withQuota 4 demo).axes[(0 : AxisNo)].config.quota ≤ demoStore.occupancy[(0 : AxisNo)]) ∧
    demoStore.occupancy[(0 : AxisNo)] < (withQuota 5 demo).axes[(0 : AxisNo)].config.quota :=
  ⟨⟨by decide +kernel, by decide +kernel, refusal_exists (by decide +kernel)⟩, by decide +kernel, fun q hq => of_passes (addedFields_pass q hq).1, by decide +kernel, of_passes (by decide +kernel), ⟨_, rfl, by decide +kernel⟩,
    fun _ h => by simp [badSuccessor] at h, fullStore_full, ⟨by decide +kernel, by decide +kernel⟩, by decide +kernel,
    by decide +kernel⟩

theorem witness_PlacementIsTheNewestOfItsEquals :
    ([1, 2, 3] : List SlotNo).Pairwise fun a b => (fun i : SlotNo => (i.val / 2 : Int)) a ≤ (fun i : SlotNo => (i.val / 2 : Int)) b := by
  decide

/-- No change entry. -/
def noChanges : Changes :=
  ⟨none, none, none, none, .keep, .keep, .keep, .keep, .keep, none, none, none⟩

/-- The checks of a MODIFY-TRIP of axis 0 of the demonstration state pass and give `ch`. -/
def Reads (f : Frame) (r : TripRecord) (ch : Changes) : Prop :=
  checkEntries f = .ok () ∧ readChanges (some (hostAxis.config, r)) f = .ok ch

/-- The record of slot 0. -/
def record0 : TripRecord := { plain 100 .armed with }

/-- The record of slot 2. -/
def record2 : TripRecord := { plain 300 .armed with successor := some ⟨1, 0⟩ }

/-- Entries of the first and the last field that may not change around those that may, a REMOVE of the fields around the optional ones, and
the value 3; entry 2 of no field; and a request without a refused entry. -/
theorem witness_ModifyTripChangesAreCheckedInOrder :
    (∀ x ∈ [(1, [0x10, 0, 0, 0, 0]), (14, [0, 0, 0, 4, 0]), (5, [0, 0x20, 0, 0, 0]), (11, [0, 0, 2, 0, 0]), (6, [0, 0x0C, 0, 0, 0])],
      let f := modifyRequest false 0 x.2 0 0
      bitAt f (5 + x.1 / 4) (7 - 2 * (x.1 % 4)) = true ∨ bitAt f (5 + x.1 / 4) (6 - 2 * (x.1 % 4)) = true) ∧
    checkEntries (modifyRequest false 0 setPosition 0 0) = .ok () :=
  ⟨by decide +kernel, of_passes (by decide +kernel)⟩

/-- The entries that R159 refuses are named at their own two bits. -/
theorem test_checkEntries_names_the_entry :
    ∀ x ∈ [([0x10, 0, 0, 0, 0], 5, 5), ([0, 0, 0, 4, 0], 8, 3), ([0, 0x20, 0, 0, 0], 6, 5), ([0, 0, 2, 0, 0], 7, 1),
        ([0, 0x0C, 0, 0, 0], 6, 3), ([0, 0x0C, 0, 4, 0], 6, 3)],
      refusal (checkEntries (modifyRequest false 0 x.1 0 0)) = some (badField x.2.1 x.2.2) := by
  decide +kernel

/-- An entry for the field after tag, which may not change; the SPENT slot 3; a width for an action that is not PULSE; the
record's own handle; a FREE slot; and slot 2 moved from slot 1 to slot 0, and re-placed. -/
theorem witness_ModifyTripOutcome :
    (∀ h e p k, InProgress (serving (modifyRequest false h e p k) demo) (modifyRequest false h e p k) 2 ↔
      u8 (modifyRequest false h e p k) 0 = 2) ∧
    (let f := modifyRequest false 0 [0, 0, 0, 4, 0] 0 0;
      u8 f 0 = 2 ∧ batchFlag f = false ∧ handleAt f 3 = some ⟨0, 0⟩ ∧ liveAs demoStore ⟨0, 0⟩ = some record0 ∧
      record0.successor ≠ some ⟨0, 0⟩ ∧ ∃ e, checkEntries f = .error e) ∧
    (let f := modifyRequest false (64 * 3) setPosition 0 0;
      u8 f 0 = 2 ∧ batchFlag f = false ∧ handleAt f 3 = some ⟨3, 0⟩ ∧
      liveAs demoStore ⟨3, 0⟩ = some { plain 50 .spent with } ∧ checkEntries f = .ok ()) ∧
    (let f := modifyRequest false 0 [0, 4, 0, 0, 0] 0 0;
      u8 f 0 = 2 ∧ batchFlag f = false ∧ handleAt f 3 = some ⟨0, 0⟩ ∧ checkEntries f = .ok () ∧
      ∃ e, readChanges (some (hostAxis.config, record0)) f = .error e) ∧
    (let f := modifyRequest false 0 setSuccessorEntry 0 0;
      u8 f 0 = 2 ∧ batchFlag f = false ∧ Reads f record0 { noChanges with successor := .set ⟨0, 0⟩ }) ∧
    (let f := modifyRequest false 0 setSuccessorEntry 0 (64 * 5 + 3);
      u8 f 0 = 2 ∧ batchFlag f = false ∧ Reads f record0 { noChanges with successor := .set ⟨5, 3⟩ } ∧
      liveAs demoStore ⟨5, 3⟩ = none) ∧
    let f := modifyRequest false (64 * 2) [4, 0, 0x10, 0, 0] (-5) 0
    u8 f 0 = 2 ∧ batchFlag f = false ∧ handleAt f 3 = some ⟨2, 0⟩ ∧ liveAs demoStore ⟨2, 0⟩ = some record2 ∧
    record2.state ≠ .spent ∧ Reads f record2 { noChanges with position := some (-5), successor := .set ⟨0, 0⟩ } ∧
    (liveAs demoStore ⟨0, 0⟩).isSome = true :=
  ⟨fun _ _ _ _ => ⟨fun h => h.2.2, fun h => ⟨rfl, rfl, h⟩⟩,
    ⟨by decide +kernel, by decide +kernel, by decide +kernel, by decide +kernel, by decide, refusal_exists (by decide +kernel)⟩,
    ⟨by decide +kernel, by decide +kernel, by decide +kernel, by decide +kernel, of_passes (by decide +kernel)⟩,
    ⟨by decide +kernel, by decide +kernel, by decide +kernel, of_passes (by decide +kernel), refusal_exists (by decide +kernel)⟩,
    ⟨by decide +kernel, by decide +kernel, of_passes (by decide +kernel), of_passes (by decide +kernel)⟩,
    ⟨by decide +kernel, by decide +kernel, ⟨of_passes (by decide +kernel), of_passes (by decide +kernel)⟩, by decide +kernel⟩,
    by decide +kernel, by decide +kernel, by decide +kernel, by decide +kernel, by decide,
    ⟨of_passes (by decide +kernel), of_passes (by decide +kernel)⟩, by decide +kernel⟩

/-- Slot 1, which slot 2 names; slot 2, which no record names; and the SPENT slot 3. -/
theorem witness_RetireTripOutcome :
    ∀ k ∈ [64, 128, 192],
      InProgress (serving (request 3 false (be16 k)) demo) (request 3 false (be16 k)) 3 ∧
      batchFlag (request 3 false (be16 k)) = false ∧
      (handleAt (request 3 false (be16 k)) 3).map (fun h => ((liveAs demoStore h).map (·.predCount), h.gen))
        = some (if k = 64 then some 1 else some 0, 0) := by
  decide +kernel

/-- HOLD-TRIP and ARM-TRIP of slot 0, ARMED, and of slot 3, SPENT. -/
theorem witness_HoldAndArmTripOutcome :
    ∀ code ∈ [4, 5], ∀ k ∈ [0, 192],
      InProgress (serving (request code false (be16 k)) demo) (request code false (be16 k)) code ∧
      batchFlag (request code false (be16 k)) = false ∧
      (handleAt (request code false (be16 k)) 3).map (fun h => (liveAs demoStore h).map (·.state))
        = some (some (if k = 0 then .armed else .spent)) := by
  decide +kernel

theorem witness_QueryTripAndAxisStatusReport :
    (InProgress (serving (request 6 false (be16 128)) demo) (request 6 false (be16 128)) 6 ∧
      batchFlag (request 6 false (be16 128)) = false ∧ handleAt (request 6 false (be16 128)) 3 = some ⟨2, 0⟩ ∧
      liveAs demoStore ⟨2, 0⟩ = some record2) ∧
    ∀ n ∈ [0, 7],
      InProgress (serving (request 20 false (be8 n)) demo) (request 20 false (be8 n)) 20 ∧
      batchFlag (request 20 false (be8 n)) = false ∧ u8 (request 20 false (be8 n)) 3 = n := by
  decide +kernel

/-- The demonstration state with axis 0 ROTARY with modulus 200. -/
def rotaryDemo : State :=
  demoWith 0 { hostAxis with config := { source := .host, span := .rotary 200 } }

/-- Axis 8; direction 2; counts 0 and 7; skip 384; a start at the modulus; and both directions, counts 1 and 6, and skips 0 and
383. -/
theorem witness_ScanAxisReportsFromTheStart :
    (∀ x ∈ [(8, 0, 1, 0), (0, 2, 1, 0), (0, 0, 0, 0), (0, 0, 7, 0), (0, 1, 6, 384)],
      let f := request 7 false (be8 x.1 ++ be32 200 ++ be8 x.2.1 ++ be8 x.2.2.1 ++ be16 x.2.2.2)
      InProgress (serving f demo) f 7 ∧ batchFlag f = false ∧ u8 f 3 = x.1 ∧ u8 f 8 = x.2.1 ∧ u8 f 9 = x.2.2.1 ∧
      u16 f 10 = x.2.2.2) ∧
    (let f := request 7 false (be8 0 ++ be32 200 ++ be8 1 ++ be8 6 ++ be16 383)
    InProgress (serving f rotaryDemo) f 7 ∧ batchFlag f = false ∧ u8 f 3 = 0 ∧ u8 f 8 = 1 ∧ u8 f 9 = 6 ∧ u16 f 10 = 383 ∧
      rotaryDemo.axes[(0 : AxisNo)].config.span = .rotary 200 ∧ i32 f 4 = 200) ∧
    (∀ d ∈ [0, 1], ∀ c ∈ [1, 6], ∀ k ∈ [0, 383],
      let f := request 7 false (be8 0 ++ be32 200 ++ be8 d ++ be8 c ++ be16 k)
      InProgress (serving f demo) f 7 ∧ batchFlag f = false ∧ u8 f 3 = 0 ∧ u8 f 8 = d ∧ u8 f 9 = c ∧ u16 f 10 = k ∧
      inRange demo.axes[(0 : AxisNo)].config.span (i32 f 4) = true) ∧
    demoStore.lists[(0 : AxisNo)].Pairwise fun i j => positionOf demoStore i ≤ positionOf demoStore j := by
  decide +kernel

/-- The request, and each clause of the second part on the rotary list: between, below, and above its records. -/
theorem witness_GetBracketReportsTheNeighbours :
    (InProgress (serving (request 8 false (be8 0)) demo) (request 8 false (be8 0)) 8 ∧
      batchFlag (request 8 false (be8 0)) = false ∧ u8 (request 8 false (be8 0)) 3 = 0) ∧
    rotaryStore.lists[(5 : AxisNo)] = [] ++ 0 :: [1] ∧
    (positionOf rotaryStore 0 ≤ 350 ∧ ∀ j ∈ ([1] : List SlotNo), 350 < positionOf rotaryStore j) ∧
    rotaryStore.lists[(5 : AxisNo)] = [0] ++ 1 :: [] ∧
    (350 < positionOf rotaryStore 1 ∧ ∀ j ∈ ([0] : List SlotNo), positionOf rotaryStore j ≤ 350) ∧
    (∀ j ∈ rotaryStore.lists[(5 : AxisNo)], 349 < positionOf rotaryStore j) ∧
    ∀ j ∈ rotaryStore.lists[(5 : AxisNo)], positionOf rotaryStore j ≤ 3100 := by
  decide +kernel

theorem witness_WipeStoreEmptiesTheStore :
    InProgress (serving (request 9 false []) demo) (request 9 false []) 9 ∧ batchFlag (request 9 false []) = false := by
  decide +kernel

/-- A resume key of 392, none, and the greatest one. -/
theorem witness_ReadNoticesReportsInReadingOrder :
    (InProgress (serving (request 10 false ([1] ++ be16 392)) noticeState) (request 10 false ([1] ++ be16 392)) 10 ∧
      batchFlag (request 10 false ([1] ++ be16 392)) = false ∧ bitAt (request 10 false ([1] ++ be16 392)) 3 0 = true ∧
      u16 (request 10 false ([1] ++ be16 392)) 4 = 392) ∧
    (InProgress (serving (request 10 false []) noticeState) (request 10 false []) 10 ∧ batchFlag (request 10 false []) = false ∧
      bitAt (request 10 false []) 3 0 = false) ∧
    InProgress (serving (request 10 false ([1] ++ be16 391)) noticeState) (request 10 false ([1] ++ be16 391)) 10 ∧
    batchFlag (request 10 false ([1] ++ be16 391)) = false ∧ bitAt (request 10 false ([1] ++ be16 391)) 3 0 = true ∧
    u16 (request 10 false ([1] ++ be16 391)) 4 = 391 := by
  decide +kernel

/-- Sort 2; axis 8; axis 7 with no kind and with FIRED; slot 384; slots 383, FREE, and 4, RESERVED; slot 0, LIVE, with no kind and with
REFERENCED; a record of slot 40; and axis 6. -/
theorem witness_AckNoticesClearsTheNamedKinds :
    (∀ x ∈ [(2, 0, 0), (0, 8, 0), (0, 7, 0), (0, 7, 1), (1, 64 * 384, 1), (1, 64 * 383, 1), (1, 64 * 4, 1), (1, 0, 0), (1, 0, 8)],
      let f := request 11 false (be8 x.1 ++ be16 x.2.1 ++ be8 x.2.2)
      InProgress (serving f demo) f 11 ∧ batchFlag f = false ∧ u8 f 3 = x.1 ∧ u16 f 4 = x.2.1 ∧
      bitAt f 6 0 = decide (x.2.2 = 1) ∧ bitAt f 6 1 = false ∧ bitAt f 6 2 = false ∧ bitAt f 6 3 = decide (x.2.2 = 8) ∧
      bitAt f 6 4 = false ∧ bitAt f 6 5 = false) ∧
    (demoStore.slots[(383 : SlotNo)].content = .free ∧ isListed demoStore 0 0 = true ∧
      demoStore.slots[(4 : SlotNo)].gen = BitVec.ofNat 6 (64 * 4)) ∧
    (let f := request 11 false (be8 1 ++ be16 (64 * 40 + 1) ++ be8 2);
      InProgress (serving f noticeState) f 11 ∧ batchFlag f = false ∧ u8 f 3 = 1 ∧ handleAt f 4 = some ⟨40, 1⟩ ∧
      (liveAs releaseStore ⟨40, 1⟩).isSome = true ∧ bitAt f 6 3 = false ∧ bitAt f 6 4 = false ∧ bitAt f 6 5 = false ∧
      bitAt f 6 1 = true) ∧
    let f := request 11 false (be8 0 ++ be16 6 ++ be8 16)
    InProgress (serving f noticeState) f 11 ∧ batchFlag f = false ∧ u8 f 3 = 0 ∧ u16 f 4 = 6 ∧ bitAt f 6 0 = false ∧
    bitAt f 6 1 = false ∧ bitAt f 6 2 = false ∧ bitAt f 6 4 = true := by
  decide +kernel

/-- With a batch open and without. -/
theorem witness_OpenAndDiscardBatchOutcome :
    ∀ k ∈ [12, 14],
      (InProgress (serving (request k false []) demo) (request k false []) k ∧ batchFlag (request k false []) = false ∧
        demo.manager.batchOpen = true) ∧
      InProgress (serving (request k false []) noticeState) (request k false []) k ∧
      noticeState.manager.batchOpen = false := by
  decide +kernel

/-- An ADD: no batch; 24 and 23 entries; a bad field (axis 8); no FREE slot; the quota at its bound and just above it. Each other staged
row without a batch, with 24 entries, and with 23; slots 384 and 383; and for MODIFY-TRIP a refused entry, a refused value, and a
change. -/
theorem witness_StagedRequestsJoinTheStagingList :
    (let f := addRequest true false 0;
    let g := request 1 true (be8 0 ++ be8 8);
    (InProgress (serving f noticeState) f 1 ∧ batchFlag f = true ∧ noticeState.manager.batchOpen = false) ∧
    (InProgress (serving f (stagedCount 24)) f 1 ∧ (stagedCount 24).manager.batchOpen = true ∧
      24 ≤ (stagedCount 24).manager.staging.length) ∧
    (InProgress (serving g (stagedCount 23)) g 1 ∧ batchFlag g = true ∧ (stagedCount 23).manager.batchOpen = true ∧
      (stagedCount 23).manager.staging.length < 24 ∧
      ∃ e, readTripFields (fun n => (serving g (stagedCount 23)).axes[n].config) g = .error e) ∧
    (∀ q ∈ [4, 5],
      readTripFields (fun n => (serving f (withQuota q (stagedCount 23))).axes[n].config) f = .ok (addedFields none)) ∧
    (∀ i : SlotNo, fullStore.slots[i].content ≠ .free) ∧ IsLowestFree demoStore 5 ∧
    ((withQuota 4 demo).axes[(0 : AxisNo)].config.quota ≠ 0 ∧
      (withQuota 4 demo).axes[(0 : AxisNo)].config.quota ≤ demoStore.occupancy[(0 : AxisNo)]) ∧
    demoStore.occupancy[(0 : AxisNo)] < (withQuota 5 demo).axes[(0 : AxisNo)].config.quota) ∧
    (∀ k ∈ [2, 3, 4, 5], ∀ h ∈ [64 * 384, 64 * 383],
      let f := request k true (be16 h)
      InProgress (serving f noticeState) f k ∧ InProgress (serving f (stagedCount 24)) f k ∧
      InProgress (serving f (stagedCount 23)) f k ∧ batchFlag f = true ∧ u16 f 3 / 64 = h / 64) ∧
    handleAt (request 3 true (be16 (64 * 383))) 3 = some ⟨383, 0⟩ ∧
    noticeState.manager.batchOpen = false ∧ (stagedCount 24).manager.batchOpen = true ∧
    24 ≤ (stagedCount 24).manager.staging.length ∧ (stagedCount 23).manager.staging.length < 24 ∧
    (∃ e, checkEntries (modifyRequest true 0 [0, 0, 0, 4, 0] 0 0) = .error e) ∧
    (checkEntries (modifyRequest true 0 [0, 0, 0, 0x10, 0] 0 0) = .ok () ∧
      ∃ ch, readChanges none (modifyRequest true 0 [0, 0, 0, 0x10, 0] 0 0) = .ok ch) ∧
    checkEntries (request 2 true (be16 0 ++ [0, 4, 0, 0, 0])) = .ok () ∧
    ∃ e, readChanges none (request 2 true (be16 0 ++ [0, 4, 0, 0, 0])) = .error e :=
  ⟨⟨by decide +kernel, by decide +kernel, ⟨by decide +kernel, by decide +kernel, rfl, by decide +kernel, refusal_exists (by decide +kernel)⟩,
    fun q hq => of_passes (addedFields_pass q hq).2, fullStore_full, ⟨by decide +kernel, by decide +kernel⟩, by decide +kernel, by decide +kernel⟩,
    by decide +kernel, by decide +kernel, rfl, rfl, by decide +kernel, by decide +kernel, refusal_exists (by decide +kernel),
    ⟨of_passes (by decide +kernel), passes_exists (by decide +kernel)⟩, of_passes (by decide +kernel), refusal_exists (by decide +kernel)⟩

/-- The store and the lowered records of a staging list whose entries pass. -/
def committed (c : CommitResult) : Option (Store × List Handle) :=
  match c with
  | .passed st lowered => some (st, lowered)
  | .failed _ _ _ => none

theorem committed_exists {c : CommitResult} (h : (committed c).isSome = true) : ∃ st lowered, c = .passed st lowered := by
  cases c <;> simp_all [committed]

/-- No batch; the batch of the demonstration state; and one that fails at its first entry, a RETIRE of a record in use. -/
theorem witness_CommitBatchAppliesAllOrNothing :
    let f := request 13 false []
    let cfg := fun n : AxisNo => (serving f demo).axes[n].config
    (InProgress (serving f noticeState) f 13 ∧ batchFlag f = false ∧ noticeState.manager.batchOpen = false) ∧
    (InProgress (serving f demo) f 13 ∧ demo.manager.batchOpen = true) ∧
    (∃ st lowered, commitEntries cfg 0 demo.manager.staging demoStore [] = .passed st lowered) ∧
    commitEntries cfg 0 [] demoStore [] = .passed demoStore [] ∧
    ∃ why, commitEntry cfg (.retire ⟨1, 0⟩) demoStore = .error why :=
  ⟨by decide +kernel, by decide +kernel, committed_exists (by decide +kernel), rfl, refusal_exists (by decide +kernel)⟩

/-- The last completion code. -/
def lastCode (s : State) : Option Completion :=
  s.port.responseQueue.getLast?.map (·.completion)

/-- RETIRE of slot 2, HOLD and ARM of slot 0, and MODIFY of slot 2, each completing with DONE. -/
theorem witness_committed_like_direct :
    (let f := request 3 false (be16 128)
    InProgress (serving f demo) f 3 ∧ batchFlag f = false ∧ handleAt f 3 = some ⟨2, 0⟩ ∧
      exec .retireTrip (serving f demo) = .next (after .retireTrip (serving f demo)) ∧
      lastCode (after .retireTrip (serving f demo)) = some .done) ∧
    (let f := request 4 false (be16 0)
    InProgress (serving f demo) f 4 ∧ batchFlag f = false ∧ handleAt f 3 = some ⟨0, 0⟩ ∧
      exec .holdTrip (serving f demo) = .next (after .holdTrip (serving f demo)) ∧
      lastCode (after .holdTrip (serving f demo)) = some .done) ∧
    (let f := request 5 false (be16 0)
    InProgress (serving f demo) f 5 ∧ batchFlag f = false ∧ handleAt f 3 = some ⟨0, 0⟩ ∧
      exec .armTrip (serving f demo) = .next (after .armTrip (serving f demo)) ∧
      lastCode (after .armTrip (serving f demo)) = some .done) ∧
    let f := modifyRequest false 128 setSuccessorEntry 0 0
    InProgress (serving f demo) f 2 ∧ batchFlag f = false ∧ handleAt f 3 = some ⟨2, 0⟩ ∧
    exec .modifyTrip (serving f demo) = .next (after .modifyTrip (serving f demo)) ∧
    lastCode (after .modifyTrip (serving f demo)) = some .done :=
  ⟨⟨by decide +kernel, by decide +kernel, by decide +kernel, next_after (by decide +kernel), by decide +kernel⟩,
    ⟨by decide +kernel, by decide +kernel, by decide +kernel, next_after (by decide +kernel), by decide +kernel⟩,
    ⟨by decide +kernel, by decide +kernel, by decide +kernel, next_after (by decide +kernel), by decide +kernel⟩,
    by decide +kernel, by decide +kernel, by decide +kernel, next_after (by decide +kernel), by decide +kernel⟩

/-- Slot 4 RESERVED with a successor: its own handle, a FREE slot, a LIVE one. -/
def reservedStore (successor : Option Handle) : Store :=
  { demoStore with slots := put demoStore.slots 4 ⟨0, .reserved { plain 500 .armed with axis := 1, successor }⟩ }

/-- `witness_committed_like_direct` for the direct requests; FREE slot 5, another generation of slot 0 and RESERVED slot 4; slot 1 in use,
slot 3 SPENT, and slot 0 with a position at the modulus, a width that does not fit, a pitch at the modulus, and a link to itself; and
the reserved slot with each sort of successor. -/
theorem witness_CommittedEntryActsLikeItsDirectRequest :
    (demoStore.slots[(5 : SlotNo)].content = .free ∧ demoStore.slots[(0 : SlotNo)].gen ≠ 1 ∧ demoStore.slots[(4 : SlotNo)].gen = 0 ∧
      ∃ r, demoStore.slots[(4 : SlotNo)].content = .reserved r) ∧
    ((liveAs demoStore ⟨1, 0⟩).map (·.predCount) = some 1 ∧ (liveAs demoStore ⟨3, 0⟩).map (·.state) = some .spent ∧
      liveAs demoStore ⟨0, 0⟩ = some record0 ∧ record0.state ≠ .spent) ∧
    (inRange (.rotary 16) 16 = false ∧ inRange (.rotary 16) 15 = true ∧
      widthFits (Option.getD none record0.action) (applyChange (.set 1) record0.width) = false ∧
      widthFits (Option.getD none record0.action) (applyChange .keep record0.width) = true ∧ 16 - 1 < 16 ∧ liveAs demoStore ⟨5, 3⟩ = none) ∧
    (∀ o ∈ [none, some (⟨4, 0⟩ : Handle), some ⟨5, 3⟩, some ⟨0, 0⟩],
      (reservedStore o).slots[(4 : SlotNo)] = ⟨0, .reserved { plain 500 .armed with axis := 1, successor := o }⟩) ∧
    liveAs (reservedStore (some ⟨4, 0⟩)) ⟨4, 0⟩ = none ∧ (liveAs (reservedStore (some ⟨0, 0⟩)) ⟨0, 0⟩).isSome = true :=
  ⟨⟨by decide +kernel, by decide +kernel, by decide +kernel, _, rfl⟩, by decide +kernel, by decide +kernel, by decide +kernel,
    by decide +kernel, by decide +kernel⟩

/-! #### Axes -/

/-- The configuration that `configRequest` carries. -/
def configOf (source : Source) (method : RefMethod) (span : Span) (r o : Int) (quota : Nat) : AxisConfig :=
  { source, span, method, refValue := r, offset := o, quota }

/-- Every CONFIG-AXIS of `configRequest` with axis 0 or 1 is one. -/
theorem configRequest_serves :
    ∀ n ∈ [0, 1], ∀ x ∈ [(0, 0, 0, (0 : Int), 0), (3, 0, 0, 0, 0), (2, 1, 0, 0, 0), (0, 0, 0, 2147483647, 0), (0, 0, 1, 0, 1), (0, 0, 0, 0, 3),
        (0, 0, 0, 0, 4)],
      let f := configRequest n x.1 x.2.1 (if x.2.2.1 = 1 then some 16 else none) x.2.2.2.1 1 x.2.2.2.2
      InProgress (serving f demo) f 15 ∧ batchFlag f = false ∧ u8 f 3 = n := by
  decide +kernel

/-- Axis 0 in TRACKING, which is not PARKED; a source out of range; INDEX with HOST; a sum of 2,147,483,648; a changed span with a
RESERVED record; a quota of 3 with 4 records; and quota 4, and none. -/
theorem witness_ConfigAxisOutcome :
    demo.axes[(0 : AxisNo)].state ≠ .parked ∧ demo.axes[(1 : AxisNo)].state = .parked ∧
    (∃ e, readConfig (configRequest 1 3 0 none 0 1 0) = .error e) ∧
    (readConfig (configRequest 1 2 1 none 0 1 0) = .ok (configOf .host .index .linear 0 1 0) ∧
      (configOf .host .index .linear 0 1 0).method = .index ∧ (configOf .host .index .linear 0 1 0).source ≠ .quad) ∧
    (readConfig (configRequest 1 0 0 none 2147483647 1 0) = .ok (configOf .quad .none .linear 2147483647 1 0) ∧
      (2147483647 : Int) < 2147483647 + 1) ∧
    (readConfig (configRequest 1 0 0 (some 16) 0 1 0) = .ok (configOf .quad .none (.rotary 16) 0 1 0) ∧
      Span.rotary 16 ≠ demo.axes[(1 : AxisNo)].config.span ∧ reservedCount demoStore 1 ≠ 0) ∧
    (readConfig (configRequest 0 0 0 none 0 1 3) = .ok (configOf .quad .none .linear 0 1 3) ∧
      (demoWith 0 {}).axes[(0 : AxisNo)].state = .parked ∧
      (configOf .quad .none .linear 0 1 3).span = (demoWith 0 {}).axes[(0 : AxisNo)].config.span ∧
      3 < demoStore.occupancy[(0 : AxisNo)]) ∧
    (readConfig (configRequest 0 0 0 none 0 1 4) = .ok (configOf .quad .none .linear 0 1 4) ∧
      demoStore.occupancy[(0 : AxisNo)] ≤ 4) ∧
    readConfig (configRequest 0 0 0 none 0 1 0) = .ok (configOf .quad .none .linear 0 1 0) :=
  ⟨by decide +kernel, by decide +kernel, refusal_exists (by decide +kernel),
    ⟨of_passes (by decide +kernel), by decide, by decide⟩, ⟨of_passes (by decide +kernel), by decide⟩,
    ⟨of_passes (by decide +kernel), by decide +kernel, by decide +kernel⟩,
    ⟨of_passes (by decide +kernel), by decide +kernel, by decide +kernel, by decide +kernel⟩,
    ⟨of_passes (by decide +kernel), by decide +kernel⟩, of_passes (by decide +kernel)⟩

/-- Axis 0 out of PARKED, axis 1 PARKED with method NONE, and axis 2 PARKED with method INDEX. -/
theorem witness_UnparkAxisOutcome :
    (∀ n ∈ [0, 1, 2],
      InProgress (serving (request 16 false (be8 n)) demo) (request 16 false (be8 n)) 16 ∧
      batchFlag (request 16 false (be8 n)) = false ∧ u8 (request 16 false (be8 n)) 3 = n) ∧
    demo.axes[(0 : AxisNo)].state ≠ .parked ∧
    (demo.axes[(1 : AxisNo)].state = .parked ∧ demo.axes[(1 : AxisNo)].config.method = .none) ∧
    (demoWith 2 { config := indexConfig }).axes[(2 : AxisNo)].state = .parked ∧
    (demoWith 2 { config := indexConfig }).axes[(2 : AxisNo)].config.method ≠ .none := by
  decide +kernel

/-- A HOST method axis in UNREFERENCED, with offset 1. -/
def hostMethodAxis : Axis :=
  { config := { method := .host, offset := 1 }, state := .unreferenced, decoderRunning := true }

/-- ESTABLISH-AXIS out of UNREFERENCED, with INDEX, and with HOST at and just past the end of the range; RESUME-AXIS and PARK-AXIS of
both sorts of state. -/
theorem witness_EstablishResumeAndParkAxisOutcome :
    (∀ code ∈ [17, 18, 19], ∀ v ∈ [(2147483646 : Int), 2147483647],
      let f := request code false (be8 2 ++ be32 v)
      InProgress (serving f (demoWith 2 hostMethodAxis)) f code ∧ batchFlag f = false ∧ u8 f 3 = 2 ∧ i32 f 4 = v) ∧
    (demoWith 2 unreferencedAxis).axes[(2 : AxisNo)].state = .unreferenced ∧
    (demoWith 2 unreferencedAxis).axes[(2 : AxisNo)].config.method = .index ∧
    (demoWith 2 hostMethodAxis).axes[(2 : AxisNo)].state = .unreferenced ∧
    (demoWith 2 hostMethodAxis).axes[(2 : AxisNo)].config.method = .host ∧
    (demoWith 2 hostMethodAxis).axes[(2 : AxisNo)].config.span = .linear ∧
    ((2147483646 : Int) + hostMethodAxis.config.offset ≤ 2147483647 ∧
      (2147483647 : Int) < 2147483647 + hostMethodAxis.config.offset) ∧
    (demoWith 2 { hostAxis with state := .suspect }).axes[(2 : AxisNo)].state = .suspect ∧
    demo.axes[(2 : AxisNo)].state = .parked := by
  decide +kernel

/-- A QUAD axis; a HOST axis PARKED; a rotary one with a value of M and of M - 1; UNREFERENCED and SUSPECT; and TRACKING with a slew
guard of 0, of the distance, and of one count less. -/
theorem witness_PostPositionOutcome :
    (∀ v ∈ [(15 : Int), 16, 300],
      let f := request 21 false (be8 0 ++ be32 v)
      InProgress (serving f demo) f 21 ∧ batchFlag f = false ∧ u8 f 3 = 0 ∧ i32 f 4 = v) ∧
    (demoWith 0 {}).axes[(0 : AxisNo)].config.source ≠ .host ∧
    ((demoWith 0 { hostAxis with state := .parked }).axes[(0 : AxisNo)].config.source = .host ∧
      (demoWith 0 { hostAxis with state := .parked }).axes[(0 : AxisNo)].state = .parked) ∧
    ((demoWith 0 { hostAxis with config := { source := .host, span := .rotary 16 } }).axes[(0 : AxisNo)].config.span = .rotary 16 ∧
      (16 : Int) ≤ 16 ∧ (15 : Int) < 16) ∧
    (∀ x ∈ [AxisState.unreferenced, .suspect], (demoWith 0 { hostAxis with state := x }).axes[(0 : AxisNo)].state = x) ∧
    (demo.axes[(0 : AxisNo)].config.source = .host ∧ demo.axes[(0 : AxisNo)].state = .tracking ∧
      demo.axes[(0 : AxisNo)].config.slewGuard = 0) ∧
    (signedTravel .linear hostAxis.position 300).natAbs = 150 ∧
    ∀ g ∈ [150, 149], (demoWith 0 { hostAxis with config := { source := .host, slewGuard := g } }).axes[(0 : AxisNo)].config.slewGuard = g := by
  decide +kernel

/-! #### Sources -/

/-- A HOST and a LINK axis in TRACKING, whose decoder does not run; and a running decoder with last pair 00, and each of the four changes
from it. -/
theorem witness_QuadEdgeResolvesOneChange :
    (demo.axes[(0 : AxisNo)].state = .tracking ∧ demo.axes[(0 : AxisNo)].decoderRunning = false) ∧
    ((demoWith 6 linkAxis).axes[(6 : AxisNo)].state = .tracking ∧
      (demoWith 6 linkAxis).axes[(6 : AxisNo)].decoderRunning = false) ∧
    let s := demoWith 3 (quadAxis (.low, .low) 1004)
    let along := fun p : Level × Level => ((if p.2 = .low then Level.high else .low), p.1)
    s.resetLow = false ∧ s.axes[(3 : AxisNo)].decoderRunning = true ∧ s.axes[(3 : AxisNo)].lastPair = (.low, .low) ∧
    (Level.high, Level.low) = along (.low, .low) ∧ (Level.low, Level.low) = along (.low, .high) ∧
    Level.high ≠ (Level.low, Level.low).1 ∧ Level.high ≠ (Level.low, Level.low).2 := by
  decide +kernel

theorem witness_IndexEventReferences :
    demo.axes[(0 : AxisNo)].decoderRunning = false ∧
    let s := demoWith 2 { unreferencedAxis with seeking := true }
    s.resetLow = false ∧ s.axes[(2 : AxisNo)].decoderRunning = true ∧ s.axes[(2 : AxisNo)].state = .unreferenced ∧
    s.axes[(2 : AxisNo)].seeking = true ∧ s.axes[(2 : AxisNo)].config.method = .index ∧
    (demoWith 2 unreferencedAxis).axes[(2 : AxisNo)].seeking = false := by
  decide +kernel

theorem witness_SampleTimerExpiryStartsAPoll :
    let s := demoWith 6 { linkAxis with poll := none }
    s.resetLow = false ∧ s.axes[(6 : AxisNo)].config.source = .link ∧ s.axes[(6 : AxisNo)].sampleNext = some 2500 ∧
    s.axes[(6 : AxisNo)].poll = none := by
  decide +kernel

/-- The axis of section 3.3.6 with its poll in flight; zeros at the timeout, and at 119, the last before it; the two checks. -/
theorem witness_PollEndsBadOrAlarm :
    ((demoWith 6 linkAxis).resetLow = false ∧ (demoWith 6 linkAxis).axes[(6 : AxisNo)].poll = some [] ∧
      (demoWith 6 linkAxis).axes[(6 : AxisNo)].state = .tracking) ∧
    (∀ b ∈ ([] : List Bool), b = false) ∧ [] ++ List.replicate 120 false = List.replicate 120 false ∧
    ((119 : Nat) < 120 ∧ [] ++ (List.replicate 119 false ++ [true, true]) = List.replicate 119 false ++ [true, true]) ∧
    ((List.replicate 8 false).length = (demoWith 6 linkAxis).axes[(6 : AxisNo)].config.wordWidth ∧
      (byteBits 0x1C#8).length = 8 ∧ byteBits 0x1C#8 ≠ byteBits (crc8 (List.replicate 8 false ++ [false, false]))) ∧
    (byteBits (crc8 (List.replicate 8 false ++ [true, false]))).length = 8 := by
  decide +kernel

/-- The axis of section 3.3.6 with its reply after 119 zeros; UNREFERENCED and SEEKING with ABSOLUTE; an offset at the end of the
range, for a word of 0 and of 1; and a slew guard of the distance and of one count less. -/
theorem witness_PollEndsGood :
    let word := [false, false, false, false, false, false, false, true]
    ((demoWith 6 linkAxis).resetLow = false ∧ (demoWith 6 linkAxis).axes[(6 : AxisNo)].poll = some [] ∧
      (demoWith 6 linkAxis).axes[(6 : AxisNo)].state = .tracking ∧ (119 : Nat) < 120 ∧
      word.length = (demoWith 6 linkAxis).axes[(6 : AxisNo)].config.wordWidth ∧
      [] ++ (List.replicate 119 false ++ replyBits false) =
        List.replicate 119 false ++ [true, false] ++ word ++ [false, false] ++ byteBits (crc8 (word ++ [false, false]))) ∧
    ((bitsToNat (List.replicate 8 false) : Int) + 2147483647 ≤ 2147483647 ∧ 2147483647 < (bitsToNat word : Int) + 2147483647) ∧
    (let a : Axis := { linkAxis with state := .unreferenced, seeking := true, config := { linkAxis.config with method := .absolute } }
    (demoWith 6 a).axes[(6 : AxisNo)].state = .unreferenced ∧ (demoWith 6 a).axes[(6 : AxisNo)].seeking = true ∧
      (demoWith 6 a).axes[(6 : AxisNo)].config.method = .absolute) ∧
    (demoWith 6 { linkAxis with state := .suspect }).axes[(6 : AxisNo)].state ≠ .tracking ∧
    (signedTravel .linear 3 (bitsToNat word)).natAbs = 2 ∧
    ∀ g ∈ [2, 1], (demoWith 6 { linkAxis with position := 3, config := { linkAxis.config with slewGuard := g } }).axes[(6 : AxisNo)].config.slewGuard = g := by
  decide +kernel

theorem witness_ParkedOrFaultedAxisIgnoresItsSource :
    let s := demoWith 3 { quadAxis (.low, .low) 7 with state := .faulted }
    s.axes[(3 : AxisNo)].state = .faulted ∧ exec (.quadEdge 3 .high .low) s = .next (after (.quadEdge 3 .high .low) s) :=
  ⟨by decide +kernel, next_after (by decide +kernel)⟩

/-! #### Travel, walks and firings -/

/-- The least modulus, half a turn; one count more, which is FALLING; and no travel. -/
theorem witness_RotaryTravelIsTheShortestWay :
    (16 ≤ 16 ∧ (0 : Int) ≤ 0 ∧ (0 : Int) < 16 ∧ (8 : Int) < 16 ∧ 2 * (((8 : Int) - 0) % 16) = 16) ∧
    travelOf (.rotary 16) 0 9 = some .falling ∧ (0 : Int) = 0 ∧ ({ span := .rotary 16 } : AxisConfig).span = .rotary 16 := by
  decide

/-- Through the wrap both ways on the least modulus; and for the remaining interval the ends of each part: (P, P′, p) of travel that does
not wrap, and of travel through the wrap with p in the first part and in the second. -/
theorem witness_CrossedIntervalHoldsTheCountsPassed :
    (travelOf (.rotary 16) 15 0 = some .rising ∧ travelOf (.rotary 16) 0 15 = some .falling) ∧
    (∀ x ∈ [((2 : Int), (5 : Int), (3 : Int)), (2, 5, 5)], x.1 < x.2.1 ∧ x.1 < x.2.2 ∧ x.2.2 ≤ x.2.1) ∧
    (∀ x ∈ [((5 : Int), (2 : Int), (3 : Int)), (5, 2, 5)], x.2.1 < x.1 ∧ x.2.1 < x.2.2 ∧ x.2.2 ≤ x.1) ∧
    (∀ x ∈ [((14 : Int), (1 : Int), (15 : Int))], x.2.1 < x.1 ∧ x.1 < x.2.2 ∧ x.2.2 ≤ 16 - 1) ∧
    (∀ x ∈ [((14 : Int), (1 : Int), (0 : Int)), (14, 1, 1)], x.2.1 < x.1 ∧ 0 ≤ x.2.2 ∧ x.2.2 ≤ x.2.1) ∧
    (∀ x ∈ [((1 : Int), (14 : Int), (0 : Int)), (1, 14, 1)], x.1 < x.2.1 ∧ 0 ≤ x.2.2 ∧ x.2.2 ≤ x.1) ∧
    ∀ x ∈ [((1 : Int), (14 : Int), (15 : Int))], x.1 < x.2.1 ∧ x.2.1 < x.2.2 ∧ x.2.2 ≤ 16 - 1 := by
  decide

theorem witness_WalkMeetsTheIntervalInWalkOrder :
    demoStore.lists[(0 : AxisNo)].Nodup ∧
    demoStore.lists[(0 : AxisNo)].Pairwise (fun i j => positionOf demoStore i ≤ positionOf demoStore j) := by
  decide +kernel

/-- Slot 0, ARMED without a successor, and slot 2, which names slot 1; with repeats of 1, of 2 and none; and pitches that end at and past
the range. -/
theorem witness_FiringMovesItsOwnRecord :
    (liveAt demoStore 0 = some record0 ∧ record0.state = .armed ∧ record0.successor = none ∧ record0.repeats = none ∧
      record0.pitch = none) ∧
    (liveAt demoStore 2 = some record2 ∧ record2.state = .armed) ∧
    ((some 2 : Option Nat) = some (0 + 2)) ∧
    (∀ r ∈ [{ record0 with repeats := some 1 }, { record0 with repeats := some 2 },
        { record0 with position := 2147483640, pitch := some 7 }, { record0 with position := 2147483640, pitch := some 8 }],
      liveAt (setLive 0 r demoStore) 0 = some r) ∧
    inRange .linear (reduce .linear (2147483640 + 7)) = true ∧ inRange .linear (reduce .linear (2147483640 + 8)) = false := by
  decide +kernel

/-- Slot 2 fires at its last repeat with end mode RELEASE, and names slot 3, SPENT with end mode RELEASE and a predecessor count as given. -/
def releasingStore (count : Nat) : Store :=
  setLive 3 { plain 50 .spent with endMode := .release, predCount := count }
    (setLive 2 { record2 with repeats := some 1, endMode := .release, successor := some ⟨3, 0⟩ } demoStore)

/-- The firing of slot 2 in that store. -/
def releasing (count : Nat) : Store :=
  fireAtStore .linear .rising [] 2 { record2 with repeats := some 1, endMode := .release, successor := some ⟨3, 0⟩ }
    (releasingStore count)

/-- Slot 2 fires and names the DORMANT slot 1, and stays; and it is released in front of the SPENT slot 3, with counts of 2 and 1. -/
theorem witness_FiringArmsItsSuccessor :
    (liveAt demoStore 2 = some record2 ∧ record2.state = .armed ∧ record2.successor = some ⟨1, 0⟩ ∧ (1 : SlotNo) ≠ 2 ∧
      liveAs demoStore ⟨1, 0⟩ = some { plain 200 .dormant with predCount := 1 } ∧
      (liveAs (fireAtStore .linear .rising [] 2 record2 demoStore) ⟨2, 0⟩).isSome = true) ∧
    (∀ k ∈ [1, 2],
      (liveAt (releasingStore k) 2).map (·.successor) = some (some ⟨3, 0⟩) ∧
      liveAs (releasingStore k) ⟨3, 0⟩ = some { plain 50 .spent with endMode := .release, predCount := k } ∧
      liveAs (releasing k) (handleOf (releasingStore k) 2) = none) ∧
    ((releasing 1).slots[(3 : SlotNo)] = ⟨1, .free⟩ ∧ (liveAs (releasing 2) ⟨3, 0⟩).map (·.predCount) = some 1) := by
  decide +kernel

/-- Slot 2 fires: without a line request, with a DRIVE-LINE of its line that may act, one that already waits, and one of another line, and
with CONFIG-LINE and LINE-STATUS. From 150 to 250 the walk meets slot 1, DORMANT. -/
theorem witness_UpdateTakesItsRecordsInOrder :
    (liveAt demo.store 5 = none ∧ liveAt demo.store 2 = some record2 ∧ record2.state = .armed ∧ record2.qualifier = .either ∧
      record2.gate = none ∧ demo.manager.inProgress = none) ∧
    (∀ l ∈ [3, 4],
      let f := request 22 false (be8 0 ++ be8 l)
      InProgress (serving f demo) f 22 ∧ u8 f 4 = l) ∧
    readDrive (driveRequest 0 none) = .ok (record2.line, ⟨.set, none, true⟩) ∧ demo.lines[record2.line].claims = [] ∧
    (setLine 3 { claims := [⟨.set, none, true⟩] } demo).lines[record2.line].claims = [⟨.set, none, true⟩] ∧
    (∀ code ∈ [23, 24], ∀ x ∈ [(3, 1), (3, 2), (4, 0)],
      let f := request code false (be8 x.1 ++ be8 x.2)
      InProgress (serving f demo) f code ∧ batchFlag f = false ∧ u8 f 3 = x.1 ∧ u8 f 4 = x.2) ∧
    (travelOf .linear 150 150 = none ∧ travelOf demo.axes[(0 : AxisNo)].config.span demo.axes[(0 : AxisNo)].position 250 = some .rising) ∧
    metSet demoStore 0 .rising (crossed .linear .rising 150 250) = [1] ∧ (liveAt demoStore 1).map (·.state) = some .dormant :=
  ⟨by decide +kernel, by decide +kernel, of_passes (by decide +kernel), by decide +kernel, by decide +kernel, by decide +kernel,
    by decide +kernel, by decide +kernel, by decide +kernel⟩

/-- A DRIVE-LINE CLEAR that comes between a walk's SET and TOGGLE of its line stands between them in the claim list (R132). -/
theorem test_driveLine_between_two_claims :
    (lineRequestAt 3 (claimArrives 3 ⟨.set, none, false⟩ (serving (driveRequest 1 none) demo))).map
        (fun t => (claimArrives 3 ⟨.toggle, none, false⟩ t).lines[(3 : LineNo)].claims) =
      some [⟨.clear, none, true⟩, ⟨.toggle, none, false⟩] := by
  decide +kernel

/-- The demonstration state is a state of the invariants below, with a POST-POSITION at the front of its queue that fires slot 2. -/
def running : State :=
  { serving (request 21 false (be8 0 ++ be32 300)) demo with pending := [.postPosition] }

theorem running_lists : ListsOrdered running.store := by
  have hl : ∀ n : AxisNo, n ≠ 0 → demoStore.lists[n] = [] := by decide +kernel
  have h0 : demoStore.lists[(0 : AxisNo)] = [0, 1, 2] := by decide +kernel
  have hi : ∀ i : SlotNo, i ∈ ([0, 1, 2] : List SlotNo) → isListed demoStore 0 i = true := by
    simp only [List.mem_cons, List.not_mem_nil, or_false, forall_eq_or_imp, forall_eq]
    decide +kernel
  have hr : ∀ (n : AxisNo) (i : SlotNo), isListed demoStore n i = true → n = 0 ∧ i ∈ ([0, 1, 2] : List SlotNo) := by
    intro n i h
    unfold isListed at h
    split at h
    · next r hr =>
      have hp := live_all (st := demoStore)
        (p := fun i _ r => decide (r.axis = 0 ∧ (listed r.state = true → i ∈ ([0, 1, 2] : List SlotNo)))) (by decide +kernel) i r hr
      simp only [Bool.and_eq_true, decide_eq_true_eq] at h hp
      exact ⟨h.1 ▸ hp.1, hp.2 h.2⟩
    · cases h
  refine ⟨fun n => ?_, fun i r hr => ?_⟩
  · show (∀ i : SlotNo, i ∈ demoStore.lists[n] ↔ isListed demoStore n i = true) ∧ demoStore.lists[n].Nodup ∧
      demoStore.lists[n].Pairwise (fun i j => positionOf demoStore i ≤ positionOf demoStore j)
    by_cases h : n = 0
    · subst h
      rw [h0]
      exact ⟨fun i => ⟨hi i, fun h => (hr 0 i h).2⟩, by decide, by decide +kernel⟩
    · rw [hl n h]
      exact ⟨fun i => ⟨fun hm => absurd hm List.not_mem_nil, fun hx => absurd (hr n i hx).1 h⟩, by decide, by decide⟩
  · have h := reserved_all (st := demoStore)
      (p := fun _ _ r => decide ((r.state = .armed ∨ r.state = .dormant) ∧ r.predCount = 0 ∧ noKinds r.pending = true))
      (by decide +kernel) i r hr
    exact of_decide_eq_true h

theorem witness_RecordsFireOnlyInTrackingAndOnce :
    ListsOrdered running.store ∧ exec .postPosition running = .next (after .postPosition running) ∧
    (liveAt running.store 2).map (·.fireCount) = some 0 ∧
    (liveAs (after .postPosition running).store (handleOf running.store 2)).map (·.fireCount) = some 1 :=
  ⟨running_lists, next_after (by decide +kernel), by decide +kernel, by decide +kernel⟩

/-- V and W of section 7.7 once V's last kind is acknowledged: V alone meets the conditions. -/
def ackedStore : Store :=
  { slots :=
      fill 384 ⟨0, .free⟩
        (List.replicate 40 ⟨0, .free⟩ ++
          [⟨1, .live { plain 0 .spent with endMode := .release, successor := some ⟨41, 0⟩, fireCount := 1 }⟩,
            ⟨0, .live { plain 0 .spent with endMode := .release, fireCount := 1, predCount := 1 }⟩]) }

/-- The check of W, which changes nothing, and the check of V, whose chain is V and W. -/
theorem witness_ReleaseFollowsTheChainToItsEnd :
    (∀ r, liveAs ackedStore ⟨41, 0⟩ = some r → releasable r = false) ∧
    (∀ (i : SlotNo) (r : TripRecord), liveAt ackedStore i = some r → releasable r = true → ⟨40, 1⟩ = handleOf ackedStore i) ∧
    ((liveAt ackedStore 40).map releasable, (releaseCheck ⟨40, 1⟩ ackedStore).slots[(41 : SlotNo)]) = (some true, ⟨1, .free⟩) := by
  refine ⟨?_, fun i r hr hx => ?_, by decide +kernel⟩
  · intro r hr
    have h : (liveAs ackedStore ⟨41, 0⟩).all (fun r => !releasable r) = true := by decide +kernel
    rw [hr] at h
    simpa using h
  have h := live_all (st := ackedStore) (p := fun i g r => !releasable r || decide ((⟨40, 1⟩ : Handle) = ⟨i, g⟩))
    (by decide +kernel) i r hr
  rw [hx] at h
  exact of_decide_eq_true h

/-! #### Lines -/

/-- A driver with `k` claims waiting, its last claim applied at 0. -/
def claimed (k : Nat) : LineDriver :=
  { level := .active, dwellStart := some 0, claims := List.replicate k ⟨.clear, none, false⟩ }

/-- No dwell; a dwell complete at 1 and not at 0; 1, 15 and 16 claims; the widths at both ends of the range; and a DRIVE-LINE in progress
whose claim is applied, and one whose claim waits. -/
theorem witness_ClaimsArriveAndActByTheTables :
    (({} : LineDriver).claims = [] ∧ ({} : LineDriver).dwellStart = none ∧ ({} : LineDriver).level = .inactive ∧
      (claimed 0).claims = [] ∧ (claimed 0).dwellStart = some 0 ∧ (claimed 0).level = .active ∧ 0 + 1 ≤ 1 ∧ 0 < 0 + 1 ∧
      (claimed 1).claims.length = 1 ∧ (claimed 15).claims.length = 15 ∧
      (claimed 16).claims = ⟨.clear, none, false⟩ :: (claimed 15).claims ∧ (claimed 16).claims.length = 16) ∧
    (1 ≤ 1 ∧ 1 ≤ 65535 ∧ 65535 ≤ 65535) ∧
    (let f := driveRequest 0 none
    InProgress (serving f demo) f 22 ∧ u8 f 4 = 3 ∧
      (arrive 0 ⟨.set, none, true⟩ (serving f demo).lines[(3 : LineNo)]).2 = some ⟨.set, none, true⟩) ∧
    (arrive 0 ⟨.set, none, true⟩ (claimed 0)).2 = none := by
  decide +kernel

/-- Line 16 and line 15; action 4; a PULSE without a width; a SET and a PULSE of width 1; and drivers with 0, 1, 15 and 16 claims,
none of them from a DRIVE-LINE. -/
theorem witness_DriveLineOutcome :
    (∀ l ∈ [15, 16], ∀ a ∈ [0, 3, 4],
      let f := request 22 false (be8 0 ++ be8 l ++ be8 a)
      InProgress (serving f demo) f 22 ∧ batchFlag f = false ∧ u8 f 4 = l ∧ u8 f 5 = a ∧ bitAt f 3 0 = false) ∧
    (actionOf 0 = some .set ∧ actionOf 3 = some .pulse) ∧
    (let f := driveRequest 3 (some 1)
    InProgress (serving f demo) f 22 ∧ u8 f 4 = 3 ∧ u8 f 5 = 3 ∧ bitAt f 3 0 = true ∧ u16 f 6 = 1) ∧
    (∀ k ∈ [0, 1, 15, 16], (∀ c ∈ (claimed k).claims, c.fromRequest = false) ∧ (claimed k).claims.length = k) ∧
    (claimed 0).dwellStart = some 0 ∧ demo.now = 0 ∧ ({ demo with now := 1 } : State).now = 1 := by
  decide +kernel

/-- Lines 15 and 16, polarities 1 and 2. -/
theorem witness_ConfigLineAndLineStatusOutcome :
    (∀ code ∈ [23, 24], ∀ l ∈ [15, 16], ∀ p ∈ [1, 2],
      let f := request code false (be8 l ++ be8 p)
      InProgress (serving f demo) f code ∧ batchFlag f = false ∧ u8 f 3 = l ∧ u8 f 4 = p) ∧
    polarityOf 1 = some .lowActive := by
  decide +kernel

/-- A running pulse; a dwell with no claim, with a firing's claim, and with the claim of the DRIVE-LINE in progress. -/
theorem witness_DwellEndAndPulseExpiryOutcome :
    (let s := setLine 3 { level := .active, pulseEnd := some 1500 } demo
    s.resetLow = false ∧ s.lines[(3 : LineNo)].pulseEnd = some 1500) ∧
    (∀ k ∈ [0, 1],
      (setLine 3 (claimed k) demo).lines[(3 : LineNo)].dwellStart = some 0 ∧
      (setLine 3 (claimed k) demo).lines[(3 : LineNo)].claims = List.replicate k ⟨.clear, none, false⟩) ∧
    let f := driveRequest 0 none
    let s := setLine 3 { dwellStart := some 0, claims := [⟨.set, none, true⟩] } (serving f demo)
    InProgress s f 22 ∧ u8 f 4 = 3 ∧ s.lines[(3 : LineNo)].dwellStart = some 0 ∧
    s.lines[(3 : LineNo)].claims = [⟨.set, none, true⟩] := by
  decide +kernel

/-- Out of reset; axis 0, of source HOST; a LINK axis with and without a poll in flight; and a transaction in progress and none. -/
theorem witness_InputPinChangesAndOutputPinLevels :
    demo.resetLow = false ∧ demo.axes[(0 : AxisNo)].config.source ≠ .link ∧
    ((demoWith 6 linkAxis).axes[(6 : AxisNo)].config.source = .link ∧ (demoWith 6 linkAxis).axes[(6 : AxisNo)].poll ≠ none) ∧
    (demoWith 6 { linkAxis with poll := none }).axes[(6 : AxisNo)].poll = none ∧
    demo.port.transaction = none ∧ (after .transactionStart demo).port.transaction.isSome = true := by
  decide +kernel

/-- The poll word of R59 on XBn: 1, 0, 1, 0, and then an input. -/
theorem test_pollWord_on_the_pin :
    (List.range 5).map (xbDrive (demoWith 6 linkAxis) 6) =
      [.driven .high, .driven .low, .driven .high, .driven .low, .released] := by
  decide +kernel

/-! #### Invariants -/

/-- The step answers a next state. -/
def stepsOn (s : State) : Bool :=
  match step s with
  | .next _ => true
  | .fault _ | .refused _ => false

theorem running_steps : ∃ t, step running = .next t := by
  have h : stepsOn running = true := by decide +kernel
  unfold stepsOn at h
  split at h
  · exact ⟨_, ‹_›⟩
  · cases h
  · cases h

theorem witness_StepKeepsAttention : AttentionFollows running ∧ ∃ t, step running = .next t := by
  refine ⟨?_, running_steps⟩
  unfold AttentionFollows
  decide +kernel

theorem witness_StepKeepsQueuesBounded : QueuesBounded running ∧ ∃ t, step running = .next t := by
  refine ⟨⟨by decide +kernel, by decide +kernel, ?_, by decide +kernel, by decide +kernel⟩, running_steps⟩
  intro f hf
  have h : 0 + partsNeeded (request 21 false (be8 0 ++ be32 300)) ≤ 8 := by decide +kernel
  have e : request 21 false (be8 0 ++ be32 300) = f := Option.some.inj hf
  rw [← e]
  exact h

theorem witness_StepKeepsOccupancyCounts : OccupancyCounts running.store ∧ ∃ t, step running = .next t := by
  refine ⟨?_, running_steps⟩
  unfold OccupancyCounts
  decide +kernel

theorem running_axes : AxesLegal running := by
  intro n
  have h : running.axes[n] = hostAxis ∨ running.axes[n] = {} := by revert n; decide +kernel
  rcases h with h | h <;> rw [h] <;>
    exact ⟨⟨trivial, by decide, by decide, by decide, by decide, by decide, by decide, by decide, by decide, by decide, by decide,
      by decide, by decide⟩, by decide, by decide, by decide, by decide, by decide, by decide, by decide⟩

theorem witness_StepKeepsAxesAndLinesLegal :
    (∃ t, step running = .next t) ∧ AxesLegal running ∧ LinesLegal running := by
  refine ⟨running_steps, running_axes, ?_⟩
  intro l
  have h : running.lines[l] = {} := by revert l; decide +kernel
  rw [h]
  exact ⟨by decide, by decide⟩

theorem witness_StepKeepsListsOrdered : ListsOrdered running.store ∧ ∃ t, step running = .next t :=
  ⟨running_lists, running_steps⟩

theorem running_batch : BatchConsistent running := by
  refine ⟨by decide +kernel, by decide +kernel, ?_, ?_⟩
  · intro e he fields h heq
    have hs : running.manager.staging = [⟨.add { plain 500 .armed with axis := 1 } ⟨4, 0⟩, 1⟩] := rfl
    rw [hs, List.mem_singleton] at he
    subst he
    cases heq
    decide +kernel
  · intro i r hr
    have h := reserved_all (st := demoStore)
      (p := fun i g _ => decide ((⟨i, g⟩ : Handle) ∈ running.manager.staging.filterMap reservedHandle)) (by decide +kernel) i r hr
    exact of_decide_eq_true h

/-- The successor of a record names a LIVE one. -/
def successorIsLive (st : Store) (o : Option Handle) : Bool :=
  match o with
  | some h => (liveAs st h).isSome
  | none => true

theorem running_links : LinksCounted running.store := by
  intro i r hr
  have h := live_all (st := demoStore)
    (p := fun i g r => decide (r.predCount = predecessors demoStore ⟨i, g⟩) &&
      decide (r.successor ≠ some (⟨i, g⟩ : Handle)) && successorIsLive demoStore r.successor)
    (by decide +kernel) i r hr
  rw [Bool.and_eq_true, Bool.and_eq_true] at h
  refine ⟨of_decide_eq_true h.1.1, of_decide_eq_true h.1.2, fun k hk => ?_⟩
  have hl := h.2
  rw [hk] at hl
  exact hl

theorem witness_StepKeepsLinksCounted :
    BatchConsistent running ∧ LinksCounted running.store ∧ ∃ t, step running = .next t :=
  ⟨running_batch, running_links, running_steps⟩

theorem witness_StepKeepsBatchConsistent : BatchConsistent running ∧ ∃ t, step running = .next t :=
  ⟨running_batch, running_steps⟩

theorem witness_StepKeepsNoneReleasable :
    ListsOrdered running.store ∧ NoneReleasable running.store ∧ ∃ t, step running = .next t := by
  refine ⟨running_lists, fun i r hr => ?_, running_steps⟩
  have h := live_all (st := demoStore) (p := fun _ _ r => !releasable r) (by decide +kernel) i r hr
  exact Bool.not_eq_true' _ ▸ h

end Sys2Proof.Tests
end

section
/-! WIPE-STORE (R25): what a wiped store holds, and what the request leaves. -/

namespace Sys2Proof.Machine

/-! ### A wiped slot -/

/-- A slot keeps its value only when it was FREE already. -/
theorem wipedSlot_eq (sl : Slot) : wipedSlot sl = if sl.content = .free then sl else ⟨sl.gen + 1, .free⟩ := by
  unfold wipedSlot
  split
  next h => simp [h]
  next h => simp [h]
  next h => simp [h]

@[simp] theorem content_wipedSlot (sl : Slot) : (wipedSlot sl).content = .free := by
  rw [wipedSlot_eq]
  split
  · assumption
  · rfl

/-! ### A wiped store -/

theorem slots_wiped (st : Store) (i : SlotNo) :
    (wiped st).slots[i] = if st.slots[i].content = .free then st.slots[i] else ⟨st.slots[i].gen + 1, .free⟩ := by
  rw [← wipedSlot_eq]
  simp

@[simp] theorem liveAt_wiped (st : Store) (i : SlotNo) : liveAt (wiped st) i = none := by
  simp [liveAt]

/-- No record is left to give an entry, so the axis entries alone decide whether a notice is waiting (R149, R142). -/
theorem noticesWaiting_wiped_iff (st : Store) :
    noticesWaiting (wiped st) = true ↔ ∃ n : AxisNo, hasAxisEntry st.axisNotices[n] = true := by
  simp [noticesWaiting_eq_true_iff]

/-! ### The request -/

/-- With the batch flag clear WIPE-STORE is not refused. -/
theorem wipeStore_of_clear {f : Frame} (hb : batchFlag f = false) (s : State) :
    wipeStore f s = .ok (storeReply (closeBatch s) (wiped s.store) (be16 (occupied s.store))) := by
  rw [wipeStore, noBatchFlag_of_clear hb]
  rfl

theorem exec_wipeStore (s : State) : exec .wipeStore s = serve (requestOf 9 s) wipeStore s := rfl

theorem exec_wipeStore_of_inProgress {s : State} {f : Frame} (hf : InProgress s f 9) (hb : batchFlag f = false) :
    exec .wipeStore s =
      .next (answered f .done (be16 (occupied s.store)) (setStore (settle (wiped s.store)) (closeBatch s))) := by
  rw [exec_wipeStore, serve_of_some wipeStore s (requestOf_of_inProgress hf), wipeStore_of_clear hb, storeReply,
    answer_ok, respond_doneWith]

/-- Settles O22: the store left is the wiped store with its attention line settled. -/
theorem wipeStoreEmptiesTheStore : Obligations.WipeStoreEmptiesTheStore := by
  intro s f hf hb
  refine ⟨settle (wiped s.store), exec_wipeStore_of_inProgress hf hb, slots_wiped s.store, fun n => ?_, rfl,
    noticesWaiting_wiped_iff s.store⟩
  constructor <;> simp

end Sys2Proof.Machine
end

section
/-! GET-BRACKET (R37 to R39): which records the neighbours of a position are, and what the request answers. -/

namespace Sys2Proof.Machine

/-! ### The neighbours of a position -/

/-- The lower neighbour is the last listed record at or below the position: no record after it is (R37). -/
theorem lowerNeighbour_eq_some {st : Store} {n : AxisNo} {i : SlotNo} {front back : List SlotNo} {p : Int}
    (hl : st.lists[n] = front ++ i :: back) (hi : positionOf st i ≤ p) (hb : ∀ j ∈ back, p < positionOf st j) (sp : Span) :
    lowerNeighbour st n sp p = some i := by
  have hback : (back.filter fun j => positionOf st j ≤ p) = [] := by simpa using hb
  have hlast : (st.lists[n].filter fun j => positionOf st j ≤ p).getLast? = some i := by
    rw [hl, List.filter_append, List.filter_cons_of_pos (by simpa using hi), hback]
    exact List.getLast?_concat
  simp only [lowerNeighbour, hlast]

/-- The upper neighbour is the first listed record above the position: no record before it is (R37). -/
theorem upperNeighbour_eq_some {st : Store} {n : AxisNo} {i : SlotNo} {front back : List SlotNo} {p : Int}
    (hl : st.lists[n] = front ++ i :: back) (hi : p < positionOf st i) (hf : ∀ j ∈ front, positionOf st j ≤ p) (sp : Span) :
    upperNeighbour st n sp p = some i := by
  have hfront : (front.filter fun j => p < positionOf st j) = [] := by simpa using hf
  have hhead : (st.lists[n].filter fun j => p < positionOf st j).head? = some i := by
    rw [hl, List.filter_append, List.filter_cons_of_pos (by simpa using hi), hfront]
    rfl
  simp only [upperNeighbour, hhead]

section NoneBelow

variable {st : Store} {n : AxisNo} {p : Int} (h : ∀ j ∈ st.lists[n], p < positionOf st j)
include h

theorem getLast?_filter_of_none_below : (st.lists[n].filter fun j => positionOf st j ≤ p).getLast? = none := by
  rw [List.filter_eq_nil_iff.2 (by simpa using h), List.getLast?_nil]

theorem lowerNeighbour_linear_of_none_below : lowerNeighbour st n .linear p = none := by
  simp only [lowerNeighbour, getLast?_filter_of_none_below h]

/-- On a rotary axis the bracket is circular: below the first record lies the last (R38). -/
theorem lowerNeighbour_rotary_of_none_below (m : Nat) : lowerNeighbour st n (.rotary m) p = st.lists[n].getLast? := by
  simp only [lowerNeighbour, getLast?_filter_of_none_below h]

end NoneBelow

section NoneAbove

variable {st : Store} {n : AxisNo} {p : Int} (h : ∀ j ∈ st.lists[n], positionOf st j ≤ p)
include h

theorem head?_filter_of_none_above : (st.lists[n].filter fun j => p < positionOf st j).head? = none := by
  rw [List.filter_eq_nil_iff.2 (by simpa using h), List.head?_nil]

theorem upperNeighbour_linear_of_none_above : upperNeighbour st n .linear p = none := by
  simp only [upperNeighbour, head?_filter_of_none_above h]

/-- On a rotary axis the bracket is circular: above the last record lies the first (R38). -/
theorem upperNeighbour_rotary_of_none_above (m : Nat) : upperNeighbour st n (.rotary m) p = st.lists[n].head? := by
  simp only [upperNeighbour, head?_filter_of_none_above h]

end NoneAbove

/-! ### The request -/

theorem getBracket_of_clear {f : Frame} {n : AxisNo} (hb : batchFlag f = false) (hn : u8 f 3 = n.val) (s : State) :
    getBracket f s = .ok (s, doneWith (bracketItems s.store n s.axes[n].config.span s.axes[n].position)) := by
  change (namedAxis f >>= fun n => _) = _
  rw [namedAxis_of_clear hb hn]
  rfl

theorem exec_getBracket (s : State) : exec .getBracket s = serve (requestOf 8 s) getBracket s := rfl

theorem exec_getBracket_of_inProgress {s : State} {f : Frame} {n : AxisNo} (hf : InProgress s f 8)
    (hb : batchFlag f = false) (hn : u8 f 3 = n.val) :
    exec .getBracket s =
      .next (answered f .done (bracketItems s.store n s.axes[n].config.span s.axes[n].position) s) := by
  rw [exec_getBracket, serve_of_some getBracket s (requestOf_of_inProgress hf), getBracket_of_clear hb hn, answer_ok,
    respond_doneWith]

/-- Settles O21: the request answers the bracket of the axis position, and the bracket's two neighbours are found in the list, or,
where the list has none on that side, past its other end on a rotary axis. -/
theorem getBracketReportsTheNeighbours : Obligations.GetBracketReportsTheNeighbours := by
  refine ⟨?_, fun st n p => ⟨?_, ?_, ?_⟩⟩
  · intro s f n hf hb hn lower upper item
    have hitem : item = optionalBytes 6 (neighbourItem s.store) := by
      funext o
      cases o <;> rfl
    rw [hitem]
    exact exec_getBracket_of_inProgress hf hb hn
  · exact fun sp i front back hl =>
      ⟨fun hi hback => lowerNeighbour_eq_some hl hi hback sp, fun hi hfront => upperNeighbour_eq_some hl hi hfront sp⟩
  · exact fun h => ⟨lowerNeighbour_linear_of_none_below h, lowerNeighbour_rotary_of_none_below h⟩
  · exact fun h => ⟨upperNeighbour_linear_of_none_above h, upperNeighbour_rotary_of_none_above h⟩

end Sys2Proof.Machine
end

section
/-! The travel of a position update (R40, R42): its direction, and the shortest way on a rotary axis. -/

namespace Sys2Proof.Machine

/-! ### The direction of a travel -/

theorem travelOf_eq_rising_iff (sp : Span) (p p' : Int) :
    travelOf sp p p' = some .rising ↔ 0 < signedTravel sp p p' := by
  unfold travelOf
  split_ifs <;> simp_all

theorem travelOf_eq_falling_iff (sp : Span) (p p' : Int) :
    travelOf sp p p' = some .falling ↔ signedTravel sp p p' < 0 := by
  unfold travelOf
  split_ifs <;> simp <;> omega

theorem travelOf_eq_none_iff (sp : Span) (p p' : Int) : travelOf sp p p' = none ↔ signedTravel sp p p' = 0 := by
  unfold travelOf
  split_ifs <;> simp <;> omega

/-- An update without travel walks nothing (R47). -/
theorem walk_of_no_travel {sp : Span} {p p' : Int} (h : signedTravel sp p p' = 0) (n : AxisNo) (s : State) :
    walk n sp p p' s = s := by
  rw [walk, (travelOf_eq_none_iff sp p p').2 h]

/-! ### The shortest way -/

/-- A number less than a turn away from the counts of a rotary axis reduces to a count by at most one turn. -/
theorem emod_turn {m : Nat} {a : Int} (hlo : -(m : Int) ≤ a) (hhi : a < 2 * m) :
    a % m = if a < 0 then a + m else if a < m then a else a - m := by
  split_ifs with hneg hlt
  · rw [← Int.add_emod_right]
    exact Int.emod_eq_of_lt (by omega) (by omega)
  · exact Int.emod_eq_of_lt (by omega) hlt
  · rw [← Int.sub_emod_right]
    exact Int.emod_eq_of_lt (by omega) (by omega)

/-- The signed travel between two counts, by which of them is the higher and whether half a turn separates them or more. -/
theorem signedTravel_rotary {m : Nat} {p p' : Int} (hp : 0 ≤ p) (hpm : p < m) (hp' : 0 ≤ p') (hpm' : p' < m) :
    signedTravel (.rotary m) p p' =
      if p' < p then (if 2 * (p - p') < m then p' - p else p' - p + m)
      else (if 2 * (p' - p) ≤ m then p' - p else p' - p - m) := by
  rw [signedTravel, emod_turn (by omega) (by omega)]
  split_ifs <;> omega

/-- The signed travel and the plain difference are the same place on the axis. -/
theorem signedTravel_rotary_eq_add_turns (m : Nat) (p p' : Int) :
    ∃ turns : Int, signedTravel (.rotary m) p p' = p' - p + turns * m := by
  have hdiv := Int.emod_def (p' - p) m
  simp only [signedTravel]
  split
  · exact ⟨-((p' - p) / m) - 1, by rw [hdiv]; ring⟩
  · exact ⟨-((p' - p) / m), by rw [hdiv]; ring⟩

section Counts

variable {m : Nat} {p p' : Int} (hp : 0 ≤ p) (hpm : p < m) (hp' : 0 ≤ p') (hpm' : p' < m)
include hp hpm hp' hpm'

theorem two_mul_signedTravel_rotary_bounds :
    -(m : Int) < 2 * signedTravel (.rotary m) p p' ∧ 2 * signedTravel (.rotary m) p p' ≤ m := by
  rw [signedTravel_rotary hp hpm hp' hpm']
  split_ifs <;> omega

theorem signedTravel_rotary_eq_zero_iff : signedTravel (.rotary m) p p' = 0 ↔ p' = p := by
  rw [signedTravel_rotary hp hpm hp' hpm']
  split_ifs <;> omega

/-- RISING travel goes up to the higher count directly, and to a lower one through the wrap. -/
theorem signedTravel_rotary_of_rising (h : 0 < signedTravel (.rotary m) p p') :
    signedTravel (.rotary m) p p' = if p' < p then p' - p + m else p' - p := by
  rw [signedTravel_rotary hp hpm hp' hpm'] at h ⊢
  split_ifs at h ⊢ <;> omega

/-- FALLING travel goes down to the lower count directly, and to a higher one through the wrap. -/
theorem signedTravel_rotary_of_falling (h : signedTravel (.rotary m) p p' < 0) :
    signedTravel (.rotary m) p p' = if p < p' then p' - p - m else p' - p := by
  rw [signedTravel_rotary hp hpm hp' hpm'] at h ⊢
  split_ifs at h ⊢ <;> omega

end Counts

/-- Half a turn either way is taken as RISING (R42). -/
theorem signedTravel_rotary_of_half_turn {m : Nat} {p p' : Int} (h : 2 * ((p' - p) % m) = m) :
    2 * signedTravel (.rotary m) p p' = m := by
  rw [signedTravel, if_neg (by omega), h]

/-- Settles O39: each clause is one fact about the signed travel, or reads the direction from its sign. -/
theorem rotaryTravelIsTheShortestWay : Obligations.RotaryTravelIsTheShortestWay := by
  intro m p p' hm hp hpm hp' hpm' d
  have hbounds := two_mul_signedTravel_rotary_bounds hp hpm hp' hpm'
  have hzero := signedTravel_rotary_eq_zero_iff hp hpm hp' hpm'
  refine ⟨signedTravel_rotary_eq_add_turns m p p', hbounds.1, hbounds.2, hzero, travelOf_eq_rising_iff _ p p',
    travelOf_eq_falling_iff _ p p', fun hhalf => ?_, fun hsame => ?_, fun c hc => ?_⟩
  · have hd := signedTravel_rotary_of_half_turn hhalf
    exact ⟨hd, (travelOf_eq_rising_iff _ p p').2 (by omega)⟩
  · have hd := hzero.2 hsame
    exact ⟨(travelOf_eq_none_iff _ p p').2 hd, walk_of_no_travel hd⟩
  · rw [guardAdmits_iff, hc]

end Sys2Proof.Machine
end

section
/-! The crossed interval of a position update (R41, R43), and what remains of it at a record met (R93). -/

namespace Sys2Proof.Machine

/-! ### Counts of an interval -/

theorem any_inStretch_cons (q a b : Int) (rest : List Stretch) :
    (⟨a, b⟩ :: rest : List Stretch).any (inStretch q) = true ↔ (a < q ∧ q ≤ b) ∨ rest.any (inStretch q) = true := by
  rw [List.any_cons, Bool.or_eq_true, inStretch_iff]

theorem any_inStretch_singleton (q a b : Int) :
    ([⟨a, b⟩] : List Stretch).any (inStretch q) = true ↔ a < q ∧ q ≤ b := by
  rw [any_inStretch_cons, List.any_nil]
  simp

theorem remaining_of_not_inStretch {a b q : Int} (h : ¬ (a < q ∧ q ≤ b)) (d : Travel) (rest : List Stretch) :
    remaining d q (⟨a, b⟩ :: rest) = remaining d q rest :=
  if_neg (mt (inStretch_iff q ⟨a, b⟩).1 h)

theorem remaining_rising {a b q : Int} (h : a < q ∧ q ≤ b) (rest : List Stretch) :
    remaining .rising q (⟨a, b⟩ :: rest) = ⟨q, b⟩ :: rest :=
  if_pos ((inStretch_iff q ⟨a, b⟩).2 h)

theorem remaining_falling {a b q : Int} (h : a < q ∧ q ≤ b) (rest : List Stretch) :
    remaining .falling q (⟨a, b⟩ :: rest) = ⟨a, q - 1⟩ :: rest :=
  if_pos ((inStretch_iff q ⟨a, b⟩).2 h)

/-! ### The parts of the crossed interval -/

theorem crossed_linear_rising (p p' : Int) : crossed .linear .rising p p' = [⟨p, p'⟩] := rfl

theorem crossed_linear_falling (p p' : Int) : crossed .linear .falling p p' = [⟨p', p⟩] := rfl

/-- RISING travel to a lower count passes the wrap. -/
theorem crossed_rotary_rising_of_lt {p p' : Int} (h : p' < p) (m : Nat) :
    crossed (.rotary m) .rising p p' = [⟨p, m - 1⟩, ⟨-1, p'⟩] := if_pos h

theorem crossed_rotary_rising_of_le {p p' : Int} (h : p ≤ p') (m : Nat) :
    crossed (.rotary m) .rising p p' = [⟨p, p'⟩] := if_neg (Int.not_lt.2 h)

/-- FALLING travel to a higher count passes the wrap. -/
theorem crossed_rotary_falling_of_lt {p p' : Int} (h : p < p') (m : Nat) :
    crossed (.rotary m) .falling p p' = [⟨-1, p⟩, ⟨p', m - 1⟩] := if_pos h

theorem crossed_rotary_falling_of_le {p p' : Int} (h : p' ≤ p) (m : Nat) :
    crossed (.rotary m) .falling p p' = [⟨p', p⟩] := if_neg (Int.not_lt.2 h)

/-! ### The counts that a rotary travel passes -/

/-- Going up by at most a turn passes the counts above the start, and after the wrap those from 0. -/
theorem exists_add_emod_iff {m distance : Nat} {p : Int} (hp : 0 ≤ p) (hpm : p < m) (hd : distance ≤ m) (q : Int) :
    (∃ k : Nat, 1 ≤ k ∧ k ≤ distance ∧ q = (p + k) % m) ↔
      (p < q ∧ q ≤ p + distance ∧ q < m) ∨ (0 ≤ q ∧ q ≤ p + distance - m) := by
  constructor
  · rintro ⟨k, hk, hkd, rfl⟩
    rw [emod_turn (by omega) (by omega)]
    split_ifs <;> omega
  · rintro (hdirect | hwrapped)
    · exact ⟨(q - p).toNat, by omega, by omega, by rw [emod_turn (by omega) (by omega)]; split_ifs <;> omega⟩
    · exact ⟨(q - p + m).toNat, by omega, by omega, by rw [emod_turn (by omega) (by omega)]; split_ifs <;> omega⟩

/-- Going down by at most a turn passes the start and the counts below it, and after the wrap those from the last one. -/
theorem exists_sub_emod_iff {m distance : Nat} {p : Int} (hp : 0 ≤ p) (hpm : p < m) (hd : distance ≤ m) (q : Int) :
    (∃ k : Nat, k < distance ∧ q = (p - k) % m) ↔
      (p - distance < q ∧ q ≤ p ∧ 0 ≤ q) ∨ (p - distance + m < q ∧ q < m) := by
  constructor
  · rintro ⟨k, hkd, rfl⟩
    rw [emod_turn (by omega) (by omega)]
    split_ifs <;> omega
  · rintro (hdirect | hwrapped)
    · exact ⟨(p - q).toNat, by omega, by rw [emod_turn (by omega) (by omega)]; split_ifs <;> omega⟩
    · exact ⟨(p - q + m).toNat, by omega, by rw [emod_turn (by omega) (by omega)]; split_ifs <;> omega⟩

section Counts

variable {m : Nat} {p p' : Int} (hp : 0 ≤ p) (hpm : p < m) (hp' : 0 ≤ p') (hpm' : p' < m)
include hp hpm hp' hpm'

/-- RISING travel leaves the start out and takes the end in (R43). -/
theorem mem_crossed_rotary_rising_iff (hd : 0 < signedTravel (.rotary m) p p') (q : Int) :
    (crossed (.rotary m) .rising p p').any (inStretch q) = true ↔
      ∃ k : Nat, 1 ≤ k ∧ k ≤ (signedTravel (.rotary m) p p').natAbs ∧ q = (p + k) % m := by
  rw [signedTravel_rotary_of_rising hp hpm hp' hpm' hd]
  rcases Int.lt_or_le p' p with hlt | hle
  · rw [crossed_rotary_rising_of_lt hlt, if_pos hlt, exists_add_emod_iff hp hpm (by omega)]
    rw [any_inStretch_cons, any_inStretch_singleton]
    omega
  · rw [crossed_rotary_rising_of_le hle, if_neg (Int.not_lt.2 hle), exists_add_emod_iff hp hpm (by omega)]
    rw [any_inStretch_singleton]
    omega

/-- FALLING travel takes the start in and leaves the end out (R43). -/
theorem mem_crossed_rotary_falling_iff (hd : signedTravel (.rotary m) p p' < 0) (q : Int) :
    (crossed (.rotary m) .falling p p').any (inStretch q) = true ↔
      ∃ k : Nat, k < (signedTravel (.rotary m) p p').natAbs ∧ q = (p - k) % m := by
  rw [signedTravel_rotary_of_falling hp hpm hp' hpm' hd]
  rcases Int.lt_or_le p p' with hlt | hle
  · rw [crossed_rotary_falling_of_lt hlt, if_pos hlt, exists_sub_emod_iff hp hpm (by omega)]
    rw [any_inStretch_cons, any_inStretch_singleton]
    omega
  · rw [crossed_rotary_falling_of_le hle, if_neg (Int.not_lt.2 hle), exists_sub_emod_iff hp hpm (by omega)]
    rw [any_inStretch_singleton]
    omega

end Counts

/-! ### The counts that remain at a record met -/

section Met

variable {a b met : Int} (h : a < met ∧ met ≤ b)
include h

/-- RISING travel has left the counts above the record met, and the parts after. -/
theorem mem_remaining_rising_iff (rest : List Stretch) (q : Int) :
    (remaining .rising met (⟨a, b⟩ :: rest)).any (inStretch q) = true ↔
      (met < q ∧ q ≤ b) ∨ rest.any (inStretch q) = true := by
  rw [remaining_rising h, any_inStretch_cons]

theorem mem_remaining_rising_last_iff (q : Int) :
    (remaining .rising met [⟨a, b⟩]).any (inStretch q) = true ↔ met < q ∧ q ≤ b := by
  rw [remaining_rising h, any_inStretch_singleton]

/-- FALLING travel has left the counts below the record met, and the parts after. -/
theorem mem_remaining_falling_iff (rest : List Stretch) (q : Int) :
    (remaining .falling met (⟨a, b⟩ :: rest)).any (inStretch q) = true ↔
      (a < q ∧ q < met) ∨ rest.any (inStretch q) = true := by
  rw [remaining_falling h, any_inStretch_cons, Int.le_sub_one_iff]

theorem mem_remaining_falling_last_iff (q : Int) :
    (remaining .falling met [⟨a, b⟩]).any (inStretch q) = true ↔ a < q ∧ q < met := by
  rw [remaining_falling h, any_inStretch_singleton, Int.le_sub_one_iff]

end Met

section Wrap

variable {m : Nat} {p p' met : Int}

/-- Before the wrap RISING travel has left the counts up to the last one, and those from 0 to its end. -/
theorem mem_remaining_rising_before_wrap_iff (hw : p' < p) (hlo : p < met) (hhi : met ≤ (m : Int) - 1) (q : Int) :
    (remaining .rising met (crossed (.rotary m) .rising p p')).any (inStretch q) = true ↔
      (met < q ∧ q ≤ (m : Int) - 1) ∨ (0 ≤ q ∧ q ≤ p') := by
  rw [crossed_rotary_rising_of_lt hw, mem_remaining_rising_iff ⟨hlo, hhi⟩, any_inStretch_singleton]
  omega

theorem mem_remaining_rising_after_wrap_iff (hw : p' < p) (hlo : 0 ≤ met) (hhi : met ≤ p') (q : Int) :
    (remaining .rising met (crossed (.rotary m) .rising p p')).any (inStretch q) = true ↔ met < q ∧ q ≤ p' := by
  have hfirst : ¬ (p < met ∧ met ≤ (m : Int) - 1) := by omega
  have hsecond : -1 < met ∧ met ≤ p' := by omega
  rw [crossed_rotary_rising_of_lt hw, remaining_of_not_inStretch hfirst, mem_remaining_rising_last_iff hsecond]

/-- Before the wrap FALLING travel has left the counts down to 0, and those from the last one down to its end. -/
theorem mem_remaining_falling_before_wrap_iff (hw : p < p') (hlo : 0 ≤ met) (hhi : met ≤ p) (q : Int) :
    (remaining .falling met (crossed (.rotary m) .falling p p')).any (inStretch q) = true ↔
      (0 ≤ q ∧ q < met) ∨ (p' < q ∧ q ≤ (m : Int) - 1) := by
  have hfirst : -1 < met ∧ met ≤ p := by omega
  rw [crossed_rotary_falling_of_lt hw, mem_remaining_falling_iff hfirst, any_inStretch_singleton]
  omega

theorem mem_remaining_falling_after_wrap_iff (hw : p < p') (hlo : p' < met) (hhi : met ≤ (m : Int) - 1) (q : Int) :
    (remaining .falling met (crossed (.rotary m) .falling p p')).any (inStretch q) = true ↔ p' < q ∧ q < met := by
  have hfirst : ¬ (-1 < met ∧ met ≤ p) := by omega
  rw [crossed_rotary_falling_of_lt hw, remaining_of_not_inStretch hfirst, mem_remaining_falling_last_iff ⟨hlo, hhi⟩]

end Wrap

/-- Settles O40: the linear intervals are single parts; a rotary travel passes the counts of its parts; and the remaining interval is
read part by part, before and after the wrap. -/
theorem crossedIntervalHoldsTheCountsPassed : Obligations.CrossedIntervalHoldsTheCountsPassed := by
  refine ⟨fun p p' q => ?linear, ?rotary, ?remaining⟩
  case linear =>
    refine ⟨?_, ?_, walk_of_no_travel (Int.sub_self p)⟩
    · rw [crossed_linear_rising, any_inStretch_singleton]
    · rw [crossed_linear_falling, any_inStretch_singleton]
  case rotary =>
    intro m p p' q hm hp hpm hp' hpm' distance
    refine ⟨fun hd => ?_, fun hd => ?_⟩
    · rw [travelOf_eq_rising_iff] at hd
      exact ⟨mem_crossed_rotary_rising_iff hp hpm hp' hpm' hd q, fun hw => crossed_rotary_rising_of_lt hw m,
        fun h => crossed_rotary_rising_of_le h.le m⟩
    · rw [travelOf_eq_falling_iff] at hd
      exact ⟨mem_crossed_rotary_falling_iff hp hpm hp' hpm' hd q, fun hw => crossed_rotary_falling_of_lt hw m,
        fun h => crossed_rotary_falling_of_le h.le m⟩
  case remaining =>
    intro p p' x q left
    refine ⟨fun hlo hhi => mem_remaining_rising_last_iff ⟨hlo, hhi⟩ q,
      fun hlo hhi => mem_remaining_falling_last_iff ⟨hlo, hhi⟩ q, fun m hp hpm hp' hpm' =>
      ⟨fun h hlo hhi => ?_, fun hw hlo hhi => mem_remaining_rising_before_wrap_iff hw hlo hhi q,
        fun hw hlo hhi => mem_remaining_rising_after_wrap_iff hw hlo hhi q,
        fun h hlo hhi => ?_, fun hw hlo hhi => mem_remaining_falling_before_wrap_iff hw hlo hhi q,
        fun hw hlo hhi => mem_remaining_falling_after_wrap_iff hw hlo hhi q⟩⟩
    · simp only [left, crossed_rotary_rising_of_le h.le]
      exact mem_remaining_rising_last_iff ⟨hlo, hhi⟩ q
    · simp only [left, crossed_rotary_falling_of_le h.le]
      exact mem_remaining_falling_last_iff ⟨hlo, hhi⟩ q

end Sys2Proof.Machine
end

section
/-! READ-NOTICES (R138, R143, R144): the notice set in reading order, what an entry shows, and what the request answers. -/

namespace Sys2Proof.Machine

/-! ### An entry as it is reported -/

theorem hasAxisEntry_iff (e : AxisEntry) :
    hasAxisEntry e = true ↔ e.referenced = true ∨ e.suspect ≠ none ∨ e.faulted ≠ none := by
  simp [hasAxisEntry, Option.isSome_iff_ne_none, or_assoc]

theorem testBit_zero_stateCode (x : RecordState) : (stateCode x).testBit 0 = decide (x = .armed ∨ x = .spent) := by
  cases x <;> rfl

theorem testBit_one_stateCode (x : RecordState) : (stateCode x).testBit 1 = decide (x = .held ∨ x = .spent) := by
  cases x <;> rfl

theorem recordEntryItem_eq (h : Handle) (r : TripRecord) :
    recordEntryItem h r =
      bitsByte [r.pending.fired, r.pending.spent, r.pending.overtaken, false, false, false,
          decide (r.state = .armed ∨ r.state = .spent), decide (r.state = .held ∨ r.state = .spent)]
        ++ handleBytes h ++ be16 r.tag ++ be16 r.fireCount := by
  rw [recordEntryItem, testBit_zero_stateCode, testBit_one_stateCode]

theorem length_axisEntryItem (n : AxisNo) (e : AxisEntry) : (axisEntryItem n e).length = 7 := rfl

theorem length_recordEntryItem (h : Handle) (r : TripRecord) : (recordEntryItem h r).length = 7 := rfl

/-! ### The entries of the notice set -/

theorem mem_axisEntries_iff (st : Store) (k : Nat) (item : List Byte) :
    (k, item) ∈ axisEntries st ↔
      ∃ n : AxisNo, hasAxisEntry st.axisNotices[n] = true ∧ n.val = k ∧ axisEntryItem n st.axisNotices[n] = item := by
  simp [axisEntries]

/-- The entry of one slot with its reading key, where its record has one. -/
def recordEntryAt (st : Store) (i : SlotNo) : Option (Nat × List Byte) :=
  match liveAt st i with
  | some r => if noKinds r.pending then none else some (8 + i.val, recordEntryItem (handleOf st i) r)
  | none => none

theorem recordEntries_eq_filterMap (st : Store) : recordEntries st = (List.finRange 384).filterMap (recordEntryAt st) := rfl

theorem recordEntryAt_eq_some_iff (st : Store) (i : SlotNo) (e : Nat × List Byte) :
    recordEntryAt st i = some e ↔
      ∃ r, liveAt st i = some r ∧ noKinds r.pending = false ∧ (8 + i.val, recordEntryItem (handleOf st i) r) = e := by
  unfold recordEntryAt
  cases liveAt st i with
  | none => simp
  | some r => cases h : noKinds r.pending <;> simp [h]

theorem mem_recordEntries_iff (st : Store) (e : Nat × List Byte) :
    e ∈ recordEntries st ↔
      ∃ (i : SlotNo) (r : TripRecord), liveAt st i = some r ∧ noKinds r.pending = false ∧
        (8 + i.val, recordEntryItem (handleOf st i) r) = e := by
  simp [recordEntries_eq_filterMap, recordEntryAt_eq_some_iff]

/-- An entry is an axis entry or a record entry (R138 to R140, R144). -/
theorem mem_noticeEntries_iff (st : Store) (k : Nat) (item : List Byte) :
    (k, item) ∈ noticeEntries st ↔
      (∃ n : AxisNo, hasAxisEntry st.axisNotices[n] = true ∧ n.val = k ∧ axisEntryItem n st.axisNotices[n] = item) ∨
      ∃ (i : SlotNo) (r : TripRecord), liveAt st i = some r ∧ noKinds r.pending = false ∧
        (8 + i.val, recordEntryItem (handleOf st i) r) = (k, item) := by
  rw [noticeEntries, List.mem_append, mem_axisEntries_iff, mem_recordEntries_iff]

theorem length_of_mem_noticeEntries {st : Store} {e : Nat × List Byte} (he : e ∈ noticeEntries st) : e.2.length = 7 := by
  obtain ⟨k, item⟩ := e
  obtain ⟨n, _, _, rfl⟩ | ⟨i, r, _, _, hr⟩ := (mem_noticeEntries_iff st k item).1 he
  · exact length_axisEntryItem n _
  · cases hr
    exact length_recordEntryItem _ r

/-! ### The reading order -/

theorem pairwise_axisEntries (st : Store) : (axisEntries st).Pairwise fun e e' => e.1 < e'.1 :=
  List.pairwise_map.2 ((List.pairwise_lt_finRange 8).filter _)

theorem pairwise_recordEntries (st : Store) : (recordEntries st).Pairwise fun e e' => e.1 < e'.1 := by
  rw [recordEntries_eq_filterMap, List.pairwise_filterMap]
  refine (List.pairwise_lt_finRange 384).imp fun {i j} hij e he e' he' => ?_
  obtain ⟨r, _, _, rfl⟩ := (recordEntryAt_eq_some_iff st i e).1 he
  obtain ⟨r', _, _, rfl⟩ := (recordEntryAt_eq_some_iff st j e').1 he'
  exact Nat.add_lt_add_left hij 8

/-- The reading keys ascend: those of the axes lie below 8, those of the records do not (R138). -/
theorem pairwise_noticeEntries (st : Store) : (noticeEntries st).Pairwise fun e e' => e.1 < e'.1 := by
  refine List.pairwise_append.2 ⟨pairwise_axisEntries st, pairwise_recordEntries st, ?_⟩
  rintro ⟨k, item⟩ hk e he
  obtain ⟨n, _, rfl, _⟩ := (mem_axisEntries_iff st k item).1 hk
  obtain ⟨i, r, _, _, rfl⟩ := (mem_recordEntries_iff st e).1 he
  exact Nat.lt_add_right i.val n.isLt

/-! ### The resume key -/

/-- The resume key that a request carries, if any (R143). -/
def resumeKey (f : Frame) : Option Nat :=
  if bitAt f 3 0 then some (u16 f 4) else none

theorem within_of_le {hi n : Nat} (h : n ≤ hi) : within 0 hi n = some n :=
  if_pos ⟨Nat.zero_le n, h⟩

theorem within_of_lt {hi n : Nat} (h : hi < n) : within 0 hi n = none :=
  if_neg fun hn => Nat.not_le.2 h hn.2

theorem optionalField_resumeKey {f : Frame} (h : bitAt f 3 0 = true → u16 f 4 ≤ 391) :
    optionalField (bitAt f 3 0) 4 7 (within 0 391 (u16 f 4)) = .ok (resumeKey f) := by
  unfold optionalField resumeKey
  split
  next hp => rw [within_of_le (h hp)]; rfl
  next => rfl

theorem optionalField_resumeKey_above {f : Frame} (hp : bitAt f 3 0 = true) (h : 392 ≤ u16 f 4) :
    optionalField (bitAt f 3 0) 4 7 (within 0 391 (u16 f 4)) = .error (badField 4 7) := by
  rw [optionalField, if_pos hp, within_of_lt h]
  rfl

theorem entriesAfter_resumeKey (st : Store) (f : Frame) :
    entriesAfter st (resumeKey f) =
      ((noticeEntries st).filter fun e => bitAt f 3 0 = false ∨ u16 f 4 < e.1).map (·.2) := by
  unfold entriesAfter resumeKey
  cases bitAt f 3 0 <;> simp

theorem length_of_mem_entriesAfter {st : Store} {resume : Option Nat} {item : List Byte}
    (h : item ∈ entriesAfter st resume) : item.length = 7 := by
  obtain ⟨e, he, rfl⟩ := List.mem_map.1 h
  exact length_of_mem_noticeEntries (List.mem_of_mem_filter he)

/-! ### The places of a part -/

/-- Items of `w` bytes, filled up with zeros: `k` places, of which each past the last item is blank. -/
theorem take_flatten_take_append_zeros {w : Nat} (k m : Nat) (items : List (List Byte))
    (hw : ∀ x ∈ items, x.length = w) (hm : k * w ≤ m) :
    ((items.take k).flatten ++ List.replicate m 0).take (k * w) =
      ((List.range k).map fun j => items.getD j (List.replicate w 0)).flatten := by
  induction k generalizing items with
  | zero => simp
  | succ k ih =>
    have hk : (k + 1) * w = w + k * w := by ring
    cases items with
    | nil =>
      simp [List.take_replicate, Nat.min_eq_left hm]
    | cons x rest =>
      have hx : x.length = w := hw x List.mem_cons_self
      have hrest := ih rest (fun y hy => hw y (List.mem_cons_of_mem x hy)) (by omega)
      rw [List.take_succ_cons, List.flatten_cons, List.append_assoc, hk, ← hx, List.take_length_add_append, hx, hrest,
        List.range_succ_eq_map]
      simp [Function.comp_def]

section Places

variable {selected : List (List Byte)} (hw : ∀ x ∈ selected, x.length = 7)
include hw

/-- Part 1 has the places of the first three entries. -/
theorem part1_eq_places :
    ((selected.take 3).flatten ++ List.replicate 21 0).take 21 =
      selected.getD 0 (List.replicate 7 0) ++ selected.getD 1 (List.replicate 7 0) ++ selected.getD 2 (List.replicate 7 0) := by
  rw [take_flatten_take_append_zeros 3 21 selected hw le_rfl]
  simp [List.range_succ]

/-- Part 2 has the places of the two entries after them. -/
theorem part2_eq_places :
    (((selected.drop 3).take 2).flatten ++ List.replicate 14 0).take 14 =
      selected.getD 3 (List.replicate 7 0) ++ selected.getD 4 (List.replicate 7 0) := by
  rw [take_flatten_take_append_zeros 2 14 (selected.drop 3) (fun x hx => hw x (List.mem_of_mem_drop hx)) le_rfl]
  simp [List.range_succ]

end Places

/-! ### The request -/

theorem respond_two (f : Frame) (c : Completion) (items items' : List Byte) (s : State) :
    respond f ⟨c, [items, items']⟩ s = completedWith [partOf f c 1 2 items, partOf f c 2 2 items'] s := rfl

theorem exec_readNotices (s : State) : exec .readNotices s = serve (requestOf 10 s) readNotices s := rfl

theorem readNotices_of_key_above {f : Frame} (hb : batchFlag f = false) (hp : bitAt f 3 0 = true) (h : 392 ≤ u16 f 4)
    (s : State) : readNotices f s = .error (badField 4 7) := by
  rw [readNotices, noBatchFlag_of_clear hb, optionalField_resumeKey_above hp h]
  rfl

theorem readNotices_of_key {f : Frame} (hb : batchFlag f = false) (h : bitAt f 3 0 = true → u16 f 4 ≤ 391) (s : State) :
    readNotices f s =
      .ok (s, ⟨.done,
        [(((entriesAfter s.store (resumeKey f)).take 3).flatten ++ List.replicate 21 0).take 21,
          ((((entriesAfter s.store (resumeKey f)).drop 3).take 2).flatten ++ List.replicate 14 0).take 14
            ++ flagByte (decide (5 < (entriesAfter s.store (resumeKey f)).length))]⟩) := by
  rw [readNotices, noBatchFlag_of_clear hb, optionalField_resumeKey h]
  rfl

/-- Settles O23: a resume key above 391 fails its check; otherwise the five places of the response are read off the entries after the
key; and the notice set is its axis entries followed by its record entries, each in ascending order. -/
theorem readNoticesReportsInReadingOrder : Obligations.ReadNoticesReportsInReadingOrder := by
  refine ⟨fun s f hf hb hp h => ?refused, fun s f hf hb h => ?reported,
    fun st => ⟨pairwise_noticeEntries st, fun k item => ?entries⟩⟩
  case refused =>
    rw [exec_readNotices, serve_of_some readNotices s (requestOf_of_inProgress hf), readNotices_of_key_above hb hp h,
      answer_error]
    rfl
  case reported =>
    intro selected blank
    have hselected : entriesAfter s.store (resumeKey f) = selected := entriesAfter_resumeKey s.store f
    have hw : ∀ x ∈ selected, x.length = 7 := fun x hx => length_of_mem_entriesAfter (hselected ▸ hx)
    rw [exec_readNotices, serve_of_some readNotices s (requestOf_of_inProgress hf), readNotices_of_key hb h, hselected,
      answer_ok, respond_two, part1_eq_places hw, part2_eq_places hw]
    rfl
  case entries =>
    rw [mem_noticeEntries_iff]
    refine or_congr (exists_congr fun n => ?axis) (exists_congr fun i => exists_congr fun r => ?record)
    case axis =>
      rw [hasAxisEntry_iff, and_left_comm, eq_comm (a := n.val), eq_comm (b := item)]
      rfl
    case record =>
      rw [← Bool.not_eq_true, noKinds_iff, recordEntryItem_eq, Prod.mk.injEq, eq_comm (b := k), eq_comm (b := item)]
      tauto

end Sys2Proof.Machine
end

section
/-! TRANSACTION_END (R198, R200, R201, R207, R210): the judgement of the incoming frame, and what the event leaves. -/

namespace Sys2Proof.Machine

/-! ### The judgement -/

theorem u8_eq_zero_iff (f : Frame) (k : Nat) : u8 f k = 0 ↔ byteAt f k = 0 :=
  BitVec.toNat_eq (y := 0#8).symm

/-- The table of R201 in its order, with the number of frames that wait in the request queue. -/
theorem judgeFrame_eq_table (clocks waiting : Nat) (sdi : List Bool) :
    judgeFrame clocks (decide (Config.queuePlaces ≤ waiting)) sdi =
      if clocks ≠ 256 then .badLength
      else if frameCheckPasses (frameOfBits sdi) = false then .frameCheck
      else if byteAt (frameOfBits sdi) 0 = 0 then .nop
      else if 8 ≤ waiting then .queueFull
      else .accepted := by
  simp only [judgeFrame, Bool.not_eq_true', u8_eq_zero_iff, decide_eq_true_eq]
  rfl

/-! ### The reset flag -/

/-- Only an ACCEPTED frame clears the reset flag (R207). -/
theorem resetFlag_after_judgement (flag : Bool) (outcome : FrameOutcome) :
    (flag && decide (outcome ≠ .accepted)) = if outcome = .accepted then false else flag := by
  split
  next h => simp [h]
  next h => simp [h]

/-! ### The event -/

theorem exec_transactionEnd_of_some {s : State} {t : Transaction} (h : s.port.transaction = some t) (sdi : List Bool) :
    exec (.transactionEnd sdi) s = .next { s with scsn := .high, port := endTransaction t sdi s.port } := by
  change execTransactionEnd sdi s = _
  rw [execTransactionEnd, h]

theorem exec_transactionEnd_of_none {s : State} (h : s.port.transaction = none) (sdi : List Bool) :
    exec (.transactionEnd sdi) s = .next { s with scsn := .high } := by
  change execTransactionEnd sdi s = _
  rw [execTransactionEnd, h]

/-- Settles O6: a transaction in progress ends as `endTransaction` says, whose outcome is the first row of the table of R201 that
applies and whose reset flag an ACCEPTED frame alone clears; without one only the pin rises. -/
theorem transactionEndJudgesTheFrame : Obligations.TransactionEndJudgesTheFrame := by
  refine ⟨fun s tr sdi htr => ?ended, fun s sdi hnone => exec_transactionEnd_of_none hnone sdi⟩
  case ended =>
    intro n f outcome
    have houtcome : judgeFrame n (decide (Config.queuePlaces ≤ s.port.requestQueue.length)) sdi = outcome :=
      judgeFrame_eq_table n s.port.requestQueue.length sdi
    rw [exec_transactionEnd_of_some htr, endTransaction, houtcome, resetFlag_after_judgement]
    rfl

end Sys2Proof.Machine
end

section
/-! What a command can do, said once: what a request that is granted leaves, what a source event does at the tracker, and what every
command leaves of the whole state. The invariants are derived from these cases. -/

namespace Sys2Proof.Machine

/-! ### Chains of checks that pass -/

theorem verdict_bind_eq_ok_iff {α β : Type} {v : Verdict α} {k : α → Verdict β} {y : β} :
    (v >>= k) = .ok y ↔ ∃ x, v = .ok x ∧ k x = .ok y :=
  ⟨verdict_bind_eq_ok, fun ⟨x, hv, hk⟩ => by rw [hv, verdict_ok_bind, hk]⟩

theorem require_ok_iff {b : Bool} {r : Refused} {x : Unit} : require b r = .ok x ↔ b = true :=
  require_eq_ok_iff b r

theorem fieldOr_eq_ok_iff {α : Type} {byte bit : Nat} {o : Option α} {x : α} :
    fieldOr byte bit o = .ok x ↔ o = some x := by
  cases o <;> simp

theorem noBatchFlag_eq_ok_iff {f : Frame} {x : Unit} : noBatchFlag f = .ok x ↔ batchFlag f = false := by
  cases h : batchFlag f <;> simp [noBatchFlag, h]

theorem target_eq_ok_iff {f : Frame} {st : Store} {h : Handle} {r : TripRecord} :
    target f st = .ok (h, r) ↔ handleAt f 3 = some h ∧ liveAs st h = some r := by
  simp only [target, verdict_bind_eq_ok_iff, fieldOr_eq_ok_iff, resolve_eq_ok_iff, verdict_pure, Except.ok.injEq,
    Prod.mk.injEq]
  constructor
  · rintro ⟨_, hh, _, hr, rfl, rfl⟩; exact ⟨hh, hr⟩
  · rintro ⟨hh, hr⟩; exact ⟨h, hh, r, hr, rfl, rfl⟩

theorem setState_eq_ok_iff {next : RecordState} {h : Handle} {r : TripRecord} {st st' : Store} :
    setState next h r st = .ok st' ↔ r.state ≠ .spent ∧ st' = setLive h.slot { r with state := next } st := by
  simp only [setState, verdict_bind_eq_ok_iff, require_ok_iff, exists_const, decide_eq_true_eq, verdict_pure, Except.ok.injEq,
    eq_comm (b := st')]

/-- The width, position and pitch checks of a change say nothing of its successor (R160 check 5). -/
theorem checkSuccessor_eq_ok_iff {h : Handle} {ch : Changes} {st : Store} :
    checkSuccessor h ch st = .ok () ↔
      ∀ k, setSuccessor ch.successor = some k → k ≠ h ∧ (liveAs st k).isSome = true := by
  simp only [checkSuccessor, verdict_bind_eq_ok_iff, require_ok_iff, exists_const, decide_eq_true_eq,
    successorLive_eq_ok_iff]
  constructor
  · rintro ⟨hne, hl⟩ k hk
    exact ⟨fun e => hne (by rw [hk, e]), hl k hk⟩
  · exact fun hall => ⟨fun e => (hall h e).1 rfl, fun k hk => (hall k hk).2⟩

/-! ### What a granted request leaves -/

/-- What a direct record request or an ACK-NOTICES leaves of the store, before the attention line settles. -/
inductive StoreEdit (f : Frame) (s : State) : Store → Prop where
  | added {fields : TripFields} {i : SlotNo} (hread : readTripFields (configs s) f = .ok fields)
      (hsucc : successorLive s.store fields.successor = .ok ()) (hslot : slotFor (configs s) fields.axis s.store = .ok i) :
      StoreEdit f s (enliven i (newRecord fields) (raiseOccupancy fields.axis s.store))
  | modified {h : Handle} {r : TripRecord} {ch : Changes} (hlive : liveAs s.store h = some r) (hstate : r.state ≠ .spent)
      (hsucc : checkSuccessor h ch s.store = .ok ()) :
      StoreEdit f s (releaseCheckOf (formerSuccessor r ch) (modifyRecord h r ch s.store))
  | retired {h : Handle} {r : TripRecord} (hlive : liveAs s.store h = some r) (hpred : r.predCount = 0) :
      StoreEdit f s (releaseCheckOf r.successor (retireRecord h r s.store))
  | stateSet {h : Handle} {r : TripRecord} {next : RecordState} (hlive : liveAs s.store h = some r)
      (hstate : r.state ≠ .spent) (hnext : next = .held ∨ next = .armed) :
      StoreEdit f s (setLive h.slot { r with state := next } s.store)
  | recordAcked {h : Handle} {r : TripRecord} {named : RecordKinds} (hlive : liveAs s.store h = some r) :
      StoreEdit f s (ackRecordStore h r named s.store)
  | axisAcked {entries : Vector AxisEntry 8} : StoreEdit f s { s.store with axisNotices := entries }

/-- What the requests that close a batch leave of the store, before the attention line settles (R25, R185 to R192). -/
inductive BatchEnd (s : State) : Store → Prop where
  | wiped : BatchEnd s (wiped s.store)
  | unreserved (hopen : s.manager.batchOpen = true) : BatchEnd s (unreserve s.store)
  | committed {st : Store} {lowered : List Handle} (hopen : s.manager.batchOpen = true)
      (hpass : commitEntries (configs s) 0 s.manager.staging s.store [] = .passed st lowered) :
      BatchEnd s (lowered.foldl (fun st h => releaseCheck h st) st)

/-- What a granted axis request leaves (R68, R73 to R76, R84, R86). -/
inductive AxisRequest (f : Frame) (n : AxisNo) (s : State) : State → Prop where
  | configured {c : AxisConfig} (hstate : s.axes[n].state = .parked) (hread : readConfig f = .ok c)
      (hmethod : methodFitsSource c = true) (hsum : sumFits c = true) :
      AxisRequest f n s (setAxis n { s.axes[n] with config := c } s)
  | unparked (hstate : s.axes[n].state = .parked) : AxisRequest f n s (unpark n s)
  | seeks (hstate : s.axes[n].state = .unreferenced) : AxisRequest f n s (setAxis n { s.axes[n] with seeking := true } s)
  | established {p : Int} (hstate : s.axes[n].state = .unreferenced) (hp : isRangeFault s.axes[n].config.span p = false) :
      AxisRequest f n s (reference n p s)
  | resumed (hstate : s.axes[n].state = .suspect) : AxisRequest f n s (setAxis n { s.axes[n] with state := .tracking } s)
  | parkedAlready : AxisRequest f n s s
  | parks : AxisRequest f n s (setAxis n (parked s.axes[n]) s)
  | posted {v : Int} (hcode : u8 f 0 = 21) (hsource : s.axes[n].config.source = .host) (hv : inRange s.axes[n].config.span v = true) :
      AxisRequest f n s (candidate n v s)

/-- What a granted request leaves, and what it answers. -/
inductive Granted (f : Frame) (s : State) : State → Reply → Prop where
  | reports {parts : List (List Byte)} (hone : 1 ≤ parts.length) (hroom : parts.length ≤ partsNeeded f) :
      Granted f s s ⟨.done, parts⟩
  | edits {st : Store} {items : List Byte} (h : StoreEdit f s st) :
      Granted f s (setStore (settle st) s) (doneWith items)
  | closes {st : Store} {c : Completion} {items : List Byte} (h : BatchEnd s st) (hc : c = .done ∨ c = .commitFailed) :
      Granted f s (setStore (settle st) (closeBatch s)) ⟨c, [items]⟩
  | opens (hclosed : s.manager.batchOpen = false) :
      Granted f s { s with manager := { s.manager with batchOpen := true, staging := [] } } (doneWith [])
  | stages {op : StagedOp} {items : List Byte} (hopen : s.manager.batchOpen = true) (hroom : s.manager.staging.length < 24)
      (hop : ∀ fields h, op ≠ .add fields h) :
      Granted f s (stage f op items s).1 (stage f op items s).2
  | stagesAdd {fields : TripFields} {i : SlotNo} {items : List Byte} (hopen : s.manager.batchOpen = true)
      (hroom : s.manager.staging.length < 24) (hread : readTripFields (configs s) f = .ok fields)
      (hslot : slotFor (configs s) fields.axis s.store = .ok i) :
      Granted f s (stage f (.add fields (handleOf s.store i)) items (setStore (reserve i (newRecord fields) s.store) s)).1
        (stage f (.add fields (handleOf s.store i)) items (setStore (reserve i (newRecord fields) s.store) s)).2
  | axis {n : AxisNo} {u : State} {c : Completion} {items : List Byte} (h : AxisRequest f n s u)
      (hc : c = .done ∨ c = .accepted) : Granted f s u ⟨c, [items]⟩
  | polarity {l : LineNo} {p : Polarity} {items : List Byte} :
      Granted f s (setLine l { s.lines[l] with polarity := p } s) (doneWith items)
  | dwellCut {l : LineNo} {items : List Byte} :
      Granted f s (setLine l { s.lines[l] with dwellCut := false } s) (doneWith items)

/-- A granted request is answered with one of the four codes that are no refusal. -/
theorem Granted.code {f : Frame} {s u : State} {r : Reply} (h : Granted f s u r) :
    r.code = .done ∨ r.code = .accepted ∨ r.code = .staged ∨ r.code = .commitFailed := by
  cases h with
  | closes _ hc => rcases hc with rfl | rfl <;> simp
  | axis _ hc => rcases hc with rfl | rfl <;> simp
  | _ => simp [doneWith, stage]

/-- Its group has the parts that were kept free for it (R152, R153). -/
theorem Granted.length {f : Frame} {s u : State} {r : Reply} (h : Granted f s u r) :
    1 ≤ r.parts.length ∧ r.parts.length ≤ partsNeeded f := by
  have hone := one_le_partsNeeded f
  cases h with
  | reports h1 h2 => exact ⟨h1, h2⟩
  | _ => exact ⟨Nat.le_refl 1, hone⟩

/-! ### The claims of the request rows -/

/-- What a claim answers when it does not refuse. -/
def Grants (claim : Frame → State → Verdict (State × Reply)) (f : Frame) (s : State) : Prop :=
  ∀ u r, claim f s = .ok (u, r) → Granted f s u r

/-- A report of one part. -/
theorem granted_report {f : Frame} {s : State} (items : List Byte) : Granted f s s (doneWith items) :=
  .reports (Nat.le_refl 1) (one_le_partsNeeded f)

theorem grants_addTrip (f : Frame) (s : State) : Grants addTrip f s := by
  intro u r h
  simp only [addTrip, storeReply, verdict_bind_eq_ok_iff, verdict_pure, Except.ok.injEq, Prod.mk.injEq] at h
  obtain ⟨fields, hread, _, hsucc, i, hslot, rfl, rfl⟩ := h
  exact .edits (.added hread hsucc hslot)

theorem grants_modifyTrip (f : Frame) (s : State) : Grants modifyTrip f s := by
  intro u rep h
  simp only [modifyTrip, storeReply, verdict_bind_eq_ok_iff, Prod.exists, target_eq_ok_iff, require_ok_iff,
    exists_const, decide_eq_true_eq, verdict_pure, Except.ok.injEq, Prod.mk.injEq] at h
  obtain ⟨h, r, ⟨-, hlive⟩, _, -, hstate, ch, -, _, hsucc, rfl, rfl⟩ := h
  exact .edits (.modified hlive hstate hsucc)

theorem grants_retireTrip (f : Frame) (s : State) : Grants retireTrip f s := by
  intro u rep h
  simp only [retireTrip, storeReply, verdict_bind_eq_ok_iff, Prod.exists, target_eq_ok_iff, require_ok_iff,
    exists_const, decide_eq_true_eq, verdict_pure, Except.ok.injEq, Prod.mk.injEq] at h
  obtain ⟨h, r, ⟨-, hlive⟩, hpred, rfl, rfl⟩ := h
  exact .edits (.retired hlive hpred)

theorem grants_holdTrip (f : Frame) (s : State) : Grants holdTrip f s := by
  intro u rep h
  simp only [holdTrip, storeReply, verdict_bind_eq_ok_iff, Prod.exists, target_eq_ok_iff, setState_eq_ok_iff,
    verdict_pure, Except.ok.injEq, Prod.mk.injEq] at h
  obtain ⟨h, r, ⟨-, hlive⟩, _, ⟨hstate, rfl⟩, rfl, rfl⟩ := h
  exact .edits (.stateSet hlive hstate (.inl rfl))

theorem grants_armTrip (f : Frame) (s : State) : Grants armTrip f s := by
  intro u rep h
  simp only [armTrip, storeReply, verdict_bind_eq_ok_iff, Prod.exists, target_eq_ok_iff, setState_eq_ok_iff,
    verdict_pure, Except.ok.injEq, Prod.mk.injEq] at h
  obtain ⟨h, r, ⟨-, hlive⟩, _, ⟨hstate, rfl⟩, rfl, rfl⟩ := h
  exact .edits (.stateSet hlive hstate (.inr rfl))

theorem grants_queryTrip {f : Frame} (hf : u8 f 0 = 6) (s : State) : Grants queryTrip f s := by
  intro u rep h
  simp only [queryTrip, verdict_bind_eq_ok_iff, Prod.exists, verdict_pure, Except.ok.injEq, Prod.mk.injEq] at h
  obtain ⟨_, -, h, r, -, rfl, rfl⟩ := h
  exact .reports (by simp) (by simp [partsNeeded, hf])

theorem grants_scanAxis {f : Frame} (hf : u8 f 0 = 7) (s : State) : Grants scanAxis f s := by
  intro u rep h
  simp only [scanAxis, verdict_bind_eq_ok_iff, fieldOr_eq_ok_iff, verdict_pure, Except.ok.injEq, Prod.mk.injEq] at h
  obtain ⟨n, -, dir, -, count, hcount, skip, -, start, -, rfl, rfl⟩ := h
  unfold within at hcount
  split at hcount
  next hc =>
    cases hcount
    refine .reports ?_ ?_
    · simp only [List.length_map, List.length_range]; omega
    · simp only [List.length_map, List.length_range, partsNeeded, hf, hc, and_self, if_true, Nat.le_refl]
  next => cases hcount

theorem grants_getBracket (f : Frame) (s : State) : Grants getBracket f s := by
  intro u rep h
  simp only [getBracket, verdict_bind_eq_ok_iff, verdict_pure, Except.ok.injEq, Prod.mk.injEq] at h
  obtain ⟨n, -, rfl, rfl⟩ := h
  exact granted_report _

theorem grants_wipeStore (f : Frame) (s : State) : Grants wipeStore f s := by
  intro u rep h
  simp only [wipeStore, storeReply, verdict_bind_eq_ok_iff, verdict_pure, Except.ok.injEq, Prod.mk.injEq] at h
  obtain ⟨_, -, rfl, rfl⟩ := h
  exact .closes .wiped (.inl rfl)

theorem grants_readNotices {f : Frame} (hf : u8 f 0 = 10) (s : State) : Grants readNotices f s := by
  intro u rep h
  simp only [readNotices, verdict_bind_eq_ok_iff, verdict_pure, Except.ok.injEq, Prod.mk.injEq] at h
  obtain ⟨_, -, resume, -, rfl, rfl⟩ := h
  exact .reports (by simp) (by simp [partsNeeded, hf])

theorem grants_ackRecord (f : Frame) (s : State) : Grants ackRecord f s := by
  intro u rep h
  simp only [ackRecord, storeReply, verdict_bind_eq_ok_iff, resolve_eq_ok_iff, verdict_pure, Except.ok.injEq,
    Prod.mk.injEq] at h
  obtain ⟨h, -, r, hlive, _, -, rfl, rfl⟩ := h
  exact .edits (.recordAcked hlive)

theorem grants_ackAxis (f : Frame) (s : State) : Grants ackAxis f s := by
  intro u rep h
  simp only [ackAxis, storeReply, verdict_bind_eq_ok_iff, verdict_pure, Except.ok.injEq, Prod.mk.injEq] at h
  obtain ⟨n, -, _, -, rfl, rfl⟩ := h
  exact .edits .axisAcked

theorem grants_ackNotices (f : Frame) (s : State) : Grants ackNotices f s := by
  intro u rep h
  obtain ⟨_, -, h⟩ := verdict_bind_eq_ok h
  split at h
  · exact grants_ackAxis f s u rep h
  · exact grants_ackRecord f s u rep h
  · cases h

theorem grants_openBatch (f : Frame) (s : State) : Grants openBatch f s := by
  intro u rep h
  simp only [openBatch, verdict_bind_eq_ok_iff, require_ok_iff, exists_const, Bool.not_eq_true', verdict_pure,
    Except.ok.injEq, Prod.mk.injEq] at h
  obtain ⟨_, -, hclosed, rfl, rfl⟩ := h
  exact .opens hclosed

theorem stagingOpen_eq_ok_iff {s : State} {x : Unit} :
    stagingOpen s = .ok x ↔ s.manager.batchOpen = true ∧ s.manager.staging.length < 24 := by
  simp only [stagingOpen, verdict_bind_eq_ok_iff, require_ok_iff, exists_const, decide_eq_true_eq]
  rfl

theorem grants_stagedAddTrip (f : Frame) (s : State) : Grants stagedAddTrip f s := by
  intro u rep h
  simp only [stagedAddTrip, verdict_bind_eq_ok_iff, stagingOpen_eq_ok_iff, verdict_pure, Except.ok.injEq,
    exists_const] at h
  obtain ⟨⟨hopen, hroom⟩, fields, hread, i, hslot, h⟩ := h
  have hg := Granted.stagesAdd (items := handleBytes (handleOf s.store i)) hopen hroom hread hslot
  rw [h] at hg
  exact hg

theorem grants_stagedModifyTrip (f : Frame) (s : State) : Grants stagedModifyTrip f s := by
  intro u rep h
  simp only [stagedModifyTrip, verdict_bind_eq_ok_iff, stagingOpen_eq_ok_iff, verdict_pure, Except.ok.injEq,
    exists_const] at h
  obtain ⟨⟨hopen, hroom⟩, h, -, _, -, ch, -, he⟩ := h
  have hg := Granted.stages (f := f) (op := .modify h ch) (items := []) hopen hroom (by simp)
  rw [he] at hg
  exact hg

/-- The three staged requests that carry a target handle alone (R181). -/
theorem grants_staged_target {claim : Frame → State → Verdict (State × Reply)} {op : Handle → StagedOp}
    (hop : ∀ h fields k, op h ≠ .add fields k)
    (hclaim : ∀ f s, claim f s = stagingOpen s >>= fun _ => fieldOr 3 7 (handleAt f 3) >>= fun h =>
      pure (stage f (op h) [] s)) (f : Frame) (s : State) : Grants claim f s := by
  intro u rep h
  simp only [hclaim, verdict_bind_eq_ok_iff, stagingOpen_eq_ok_iff, verdict_pure, Except.ok.injEq, exists_const] at h
  obtain ⟨⟨hopen, hroom⟩, h, -, he⟩ := h
  have hg := Granted.stages (f := f) (op := op h) (items := []) hopen hroom (hop h)
  rw [he] at hg
  exact hg

theorem grants_stagedRetireTrip (f : Frame) (s : State) : Grants stagedRetireTrip f s :=
  grants_staged_target (op := .retire) (by simp) (fun _ _ => rfl) f s

theorem grants_stagedHoldTrip (f : Frame) (s : State) : Grants stagedHoldTrip f s :=
  grants_staged_target (op := .hold) (by simp) (fun _ _ => rfl) f s

theorem grants_stagedArmTrip (f : Frame) (s : State) : Grants stagedArmTrip f s :=
  grants_staged_target (op := .arm) (by simp) (fun _ _ => rfl) f s

theorem grants_commitBatch (f : Frame) (s : State) : Grants commitBatch f s := by
  intro u rep h
  simp only [commitBatch, verdict_bind_eq_ok_iff, require_ok_iff, exists_const] at h
  obtain ⟨_, -, hopen, h⟩ := h
  split at h
  · cases h
    exact .closes (.unreserved hopen) (.inr rfl)
  next hpass =>
    cases h
    exact .closes (.committed hopen hpass) (.inl rfl)

theorem grants_discardBatch (f : Frame) (s : State) : Grants discardBatch f s := by
  intro u rep h
  simp only [discardBatch, storeReply, verdict_bind_eq_ok_iff, require_ok_iff, exists_const, verdict_pure,
    Except.ok.injEq, Prod.mk.injEq] at h
  obtain ⟨_, -, hopen, rfl, rfl⟩ := h
  exact .closes (.unreserved hopen) (.inl rfl)

theorem grants_configAxis (f : Frame) (s : State) : Grants configAxis f s := by
  intro u rep h
  simp only [configAxis, verdict_bind_eq_ok_iff, require_ok_iff, exists_const, decide_eq_true_eq, verdict_pure,
    Except.ok.injEq, Prod.mk.injEq] at h
  obtain ⟨n, -, hstate, c, hread, hmethod, hsum, -, -, rfl, rfl⟩ := h
  exact .axis (.configured hstate hread hmethod hsum) (.inl rfl)

theorem grants_unparkAxis (f : Frame) (s : State) : Grants unparkAxis f s := by
  intro u rep h
  simp only [unparkAxis, axisReply, verdict_bind_eq_ok_iff, require_ok_iff, exists_const, decide_eq_true_eq, verdict_pure,
    Except.ok.injEq, Prod.mk.injEq] at h
  obtain ⟨n, -, hstate, rfl, rfl⟩ := h
  exact .axis (.unparked hstate) (.inl rfl)

theorem grants_establishAxis (f : Frame) (s : State) : Grants establishAxis f s := by
  intro u rep h
  simp only [establishAxis, axisReply, verdict_bind_eq_ok_iff, require_ok_iff, exists_const, decide_eq_true_eq] at h
  obtain ⟨n, -, hstate, h⟩ := h
  split at h
  · simp only [verdict_bind_eq_ok_iff, require_ok_iff, exists_const, Bool.not_eq_true', verdict_pure, Except.ok.injEq,
      Prod.mk.injEq] at h
    obtain ⟨hp, rfl, rfl⟩ := h
    exact .axis (.established hstate hp) (.inl rfl)
  · cases h
    exact .axis (.seeks hstate) (.inr rfl)
  · cases h
    exact .axis (.seeks hstate) (.inr rfl)
  · cases h

theorem grants_resumeAxis (f : Frame) (s : State) : Grants resumeAxis f s := by
  intro u rep h
  simp only [resumeAxis, axisReply, verdict_bind_eq_ok_iff, require_ok_iff, exists_const, decide_eq_true_eq, verdict_pure,
    Except.ok.injEq, Prod.mk.injEq] at h
  obtain ⟨n, -, hstate, rfl, rfl⟩ := h
  exact .axis (.resumed hstate) (.inl rfl)

theorem grants_parkAxis (f : Frame) (s : State) : Grants parkAxis f s := by
  intro u rep h
  simp only [parkAxis, axisReply, verdict_bind_eq_ok_iff, verdict_pure, Except.ok.injEq, Prod.mk.injEq] at h
  obtain ⟨n, -, rfl, rfl⟩ := h
  split
  · exact .axis (n := n) .parkedAlready (.inl rfl)
  · exact .axis .parks (.inl rfl)

theorem grants_axisStatus (f : Frame) (s : State) : Grants axisStatus f s := by
  intro u rep h
  simp only [axisStatus, verdict_bind_eq_ok_iff, verdict_pure, Except.ok.injEq, Prod.mk.injEq] at h
  obtain ⟨n, -, rfl, rfl⟩ := h
  exact granted_report _

theorem positionIn_eq_some_iff {sp : Span} {p q : Int} : positionIn sp p = some q ↔ inRange sp p = true ∧ p = q := by
  unfold positionIn
  split <;> simp_all

theorem grants_postPosition {f : Frame} (hf : u8 f 0 = 21) (s : State) : Grants postPosition f s := by
  intro u rep h
  simp only [postPosition, axisReply, verdict_bind_eq_ok_iff, require_ok_iff, exists_const, decide_eq_true_eq,
    fieldOr_eq_ok_iff, positionIn_eq_some_iff, verdict_pure, Except.ok.injEq, Prod.mk.injEq] at h
  obtain ⟨n, -, hsource, -, v, ⟨hv, rfl⟩, rfl, rfl⟩ := h
  exact .axis (.posted hf hsource hv) (.inl rfl)

theorem grants_configLine (f : Frame) (s : State) : Grants configLine f s := by
  intro u rep h
  simp only [configLine, verdict_bind_eq_ok_iff, verdict_pure, Except.ok.injEq, Prod.mk.injEq] at h
  obtain ⟨_, -, l, -, p, -, rfl, rfl⟩ := h
  exact .polarity

theorem grants_lineStatus (f : Frame) (s : State) : Grants lineStatus f s := by
  intro u rep h
  simp only [lineStatus, verdict_bind_eq_ok_iff, verdict_pure, Except.ok.injEq, Prod.mk.injEq] at h
  obtain ⟨_, -, l, -, rfl, rfl⟩ := h
  exact .dwellCut

end Sys2Proof.Machine
end

section
/-! What a source event does at the tracker, and what every command leaves of the whole state: the inversion of `exec` from which the
invariants follow. -/

namespace Sys2Proof.Machine

/-! ### The tracker -/

/-- A position that the axis holds already, or one that the part computes from an exact position that is no range fault (R74, R78). -/
def Reached (a : Axis) (p : Int) : Prop :=
  p = a.position ∨ ∃ exact, isRangeFault a.config.span exact = false ∧ p = reduce a.config.span exact

/-- What the tracker of axis `n` does on a source event; only where `mayFault` holds can the event send the axis to FAULTED. -/
inductive TrackerMove (mayFault : Prop) (n : AxisNo) (s : State) : State → Prop where
  | still : TrackerMove mayFault n s s
  | moved {p : Int} (hp : Reached s.axes[n] p) : TrackerMove mayFault n s (setAxis n { s.axes[n] with position := p } s)
  | faulted {c : Cause} (hmay : mayFault) (hacts : acts s.axes[n].state = true) :
      TrackerMove mayFault n s (becomeFaulted n c s)
  | suspected {c : Cause} {p : Int} (hstate : s.axes[n].state = .tracking) (hp : Reached s.axes[n] p) :
      TrackerMove mayFault n s (becomeSuspect n c p s)
  | referenced {p : Int} (hstate : s.axes[n].state = .unreferenced)
      (hp : sumFits s.axes[n].config = true → isRangeFault s.axes[n].config.span p = false) :
      TrackerMove mayFault n s (reference n p s)
  | updated {p : Int} (hstate : s.axes[n].state = .tracking) (hp : Reached s.axes[n] p) :
      TrackerMove mayFault n s (positionUpdate n p s)

theorem candidate_move {mayFault : Prop} (n : AxisNo) (exact : Int) (s : State)
    (hmay : isRangeFault s.axes[n].config.span exact = true → mayFault) :
    TrackerMove mayFault n s (candidate n exact s) := by
  unfold candidate
  simp only
  split
  · exact .still
  next hacts =>
    split
    next hfault => exact .faulted (hmay hfault) (by simpa using hacts)
    next hfault =>
      have hp : Reached s.axes[n] (reduce s.axes[n].config.span exact) := .inr ⟨exact, by simpa using hfault, rfl⟩
      split
      next hstate =>
        split
        · exact .updated hstate hp
        · exact .suspected hstate hp
      next => exact .moved hp

theorem countStep_move (n : AxisNo) (forward : Bool) (s : State) : TrackerMove True n s (countStep n forward s) :=
  candidate_move n _ s fun _ => trivial

theorem decodeError_move (n : AxisNo) (s : State) : TrackerMove True n s (decodeError n s) := by
  unfold decodeError
  split
  next hstate => exact .suspected hstate (.inl rfl)
  next => exact .still

theorem linkFault_move (n : AxisNo) (c : Cause) (s : State) : TrackerMove True n s (linkFault n c s) := by
  unfold linkFault
  split
  next hacts => exact .faulted trivial hacts
  next => exact .still

/-- The sum that an axis references at is no range fault where check 5 of R73 has passed on its configuration. -/
theorem isRangeFault_sum {c : AxisConfig} (h : sumFits c = true) (hm : c.method = .none ∨ c.method = .index) :
    isRangeFault c.span (c.refValue + c.offset) = false := by
  rw [isRangeFault_eq_false_iff]
  rintro ⟨hsp, hout⟩
  have := (sumFits_iff c).1 h hsp hm
  omega

/-- A GOOD sample copies WARN or leaves it, and then the sample acts at the tracker. -/
theorem goodSample_move (n : AxisNo) (raw : Nat) (warn : Bool) (s : State) :
    ∃ w, TrackerMove True n (setAxis n { s.axes[n] with warn := w } s) (goodSample n raw warn s) := by
  have hself : setAxis n { s.axes[n] with warn := s.axes[n].warn } s = s := setAxis_self n s
  unfold goodSample
  simp only
  split
  next => exact ⟨s.axes[n].warn, by rw [hself]; exact .still⟩
  next hacts =>
    split
    next => exact ⟨s.axes[n].warn, by rw [hself]; exact .faulted trivial (by simpa using hacts)⟩
    next hfault =>
      refine ⟨warn, ?_⟩
      split
      next h => exact .referenced (by simpa using h.1) fun _ => by simpa using hfault
      next => exact candidate_move n _ _ fun _ => trivial

/-! ### Front ends -/

/-- What a source event changes at its front end before the tracker sees it: pins and last pair, an ended poll with its failure count,
and WARN. -/
structure SourceSeen (a a' : Axis) : Prop where
  frame : a' = { a with
    xa := a'.xa, xb := a'.xb, lastPair := a'.lastPair, poll := a'.poll, failures := a'.failures, warn := a'.warn }
  failures : a'.failures = a.failures ∨ a'.failures = 0 ∨
    (a'.failures = a.failures + 1 ∧ a'.failures ≠ a.config.failureLimit)

/-- The end of a poll: the receiver's own fields change, and the outcome reaches the tracker (R61 to R64). -/
theorem endPoll_move (n : AxisNo) (o : PollOutcome) (s : State) :
    ∃ a, a.poll = none ∧ SourceSeen s.axes[n] a ∧ TrackerMove True n (setAxis n a s) (endPoll n o s) := by
  cases o with
  | good raw warn =>
    obtain ⟨w, h⟩ := goodSample_move n raw warn (setAxis n { s.axes[n] with poll := none, failures := 0 } s)
    rw [axes_setAxis_self, setAxis_setAxis] at h
    exact ⟨_, rfl, ⟨rfl, .inr (.inl rfl)⟩, h⟩
  | alarm => exact ⟨{ s.axes[n] with poll := none }, rfl, ⟨rfl, .inl rfl⟩, linkFault_move n .encoder _⟩
  | bad =>
    unfold endPoll badOutcome
    simp only
    split
    next => exact ⟨_, rfl, ⟨rfl, .inr (.inl rfl)⟩, linkFault_move n .link _⟩
    next hlimit => exact ⟨_, rfl, ⟨rfl, .inr (.inr ⟨rfl, hlimit⟩)⟩, .still⟩

/-! ### Every command -/

/-- The request frame `f` is in progress and the part is out of reset. -/
abbrev Serving (s : State) (f : Frame) : Prop :=
  s.resetLow = false ∧ s.manager.inProgress = some f

/-- What command `c` can leave of the state `s`. -/
inductive Effect (c : Instr) (s : State) : State → Prop where
  | nothing : Effect c s s
  | refused {f : Frame} {e : Refused} (hf : Serving s f) : Effect c s (answered f e.code e.items s)
  | granted {f : Frame} {u : State} {r : Reply} (hf : Serving s f) (h : Granted f s u r) : Effect c s (respond f r u)
  | reset (hc : c = .hardwareReset) : Effect c s { resetBlocks s with resetLow := true }
  | pins {low : Bool} {scsn inhn : Level} {gates : Vector Level 4} (hc : low = s.resetLow ∨ c = .resetEnd) :
      Effect c s { s with resetLow := low, scsn := scsn, inhn := inhn, gates := gates }
  | axisPins {n : AxisNo} {a b : Level} : Effect c s (setAxis n { s.axes[n] with xa := a, xb := b } s)
  | starts {tr : Transaction} (hreset : s.resetLow = false) :
      Effect c s { s with scsn := .low, port := { s.port with transaction := some tr } }
  | ends {tr : Transaction} {sdi : List Bool} (hc : c = .transactionEnd sdi) (htr : s.port.transaction = some tr) :
      Effect c s { s with scsn := .high, port := endTransaction tr sdi s.port }
  | takes {f : Frame} {rest : List Frame} (hc : c = .takeRequest) (hreset : s.resetLow = false)
      (hqueue : s.port.requestQueue = f :: rest) (hidle : s.manager.inProgress = none) (hroom : roomFor f s.port = true) :
      Effect c s
        { s with
          port := { s.port with requestQueue := rest }
          manager := { s.manager with inProgress := some f } }
  | sampleDue {n : AxisNo} {due : Nat} (hreset : s.resetLow = false) (hlink : s.axes[n].config.source = .link)
      (hdue : s.axes[n].sampleNext = some due) :
      Effect c s
        (setAxis n
          { s.axes[n] with
            sampleNext := some (due + Config.ticksPerMicrosecond * s.axes[n].config.samplePeriod)
            poll := if acts s.axes[n].state then some [] else none }
          (advanceTo due s))
  | polled {n : AxisNo} {bits : List Bool} (hreset : s.resetLow = false) (hpoll : s.axes[n].poll.isSome = true) :
      Effect c s (setAxis n { s.axes[n] with poll := some bits } s)
  | source {n : AxisNo} {a : Axis} {u : State} (hreset : s.resetLow = false)
      (hrun : (s.axes[n].decoderRunning = true ∧ a.poll = s.axes[n].poll) ∨
        (s.axes[n].poll.isSome = true ∧ a.poll = none))
      (hseen : SourceSeen s.axes[n] a) (h : TrackerMove True n (setAxis n a s) u) : Effect c s u
  | drives {f : Frame} {l : LineNo} {k : LineClaim} (hf : Serving s f) :
      Effect c s (claimArrives l k s)
  | dwellEnds {l : LineNo} {due : Nat} (hreset : s.resetLow = false) (hdue : s.lines[l].dwellStart = some due) :
      Effect c s (applyHead l (advanceTo (due + Config.dwellTicks) s))
  | pulseEnds {l : LineNo} {due : Nat} (hreset : s.resetLow = false) (hdue : s.lines[l].pulseEnd = some due) :
      Effect c s (setLine l { s.lines[l] with level := .inactive, pulseEnd := none } (advanceTo due s))

/-- A row that completes a request grants or refuses it, or does not arise. -/
theorem serve_effect {c : Instr} {s : State} {request : Option Frame} {claim : Frame → State → Verdict (State × Reply)}
    (hf : ∀ f, request = some f → Serving s f) (hclaim : ∀ f, request = some f → Grants claim f s) :
    ∃ t, serve request claim s = .next t ∧ Effect c s t := by
  obtain ⟨-, h⟩ | ⟨f, hr, h⟩ := serve_eq request claim s
  · exact ⟨s, h, .nothing⟩
  · refine ⟨_, h, ?_⟩
    cases hv : claim f s with
    | error e => exact .refused (hf f hr)
    | ok v => exact .granted (hf f hr) (hclaim f hr v.1 v.2 hv)

theorem serving_of_inProgress {s : State} {f : Frame} {code : Nat} (h : InProgress s f code) : Serving s f :=
  ⟨h.1, h.2.1⟩

theorem request_effect {c : Instr} {s : State} {code : Nat} {claim : Frame → State → Verdict (State × Reply)}
    (hclaim : ∀ f, u8 f 0 = code → Grants claim f s) :
    ∃ t, serve (requestOf code s) claim s = .next t ∧ Effect c s t :=
  serve_effect (fun _ hr => serving_of_inProgress ((requestOf_eq_some_iff _ _ _).1 hr))
    fun f hr => hclaim f ((requestOf_eq_some_iff _ _ _).1 hr).2.2

theorem recordRequest_effect {c : Instr} {s : State} {code : Nat} {staged : Bool}
    {claim : Frame → State → Verdict (State × Reply)} (hclaim : ∀ f, Grants claim f s) :
    ∃ t, serve (recordRequestOf code staged s) claim s = .next t ∧ Effect c s t :=
  serve_effect (fun _ hr => serving_of_inProgress ((recordRequestOf_eq_some_iff _ _ _ _).1 hr).1) fun f _ => hclaim f

theorem execUnknown_effect (s : State) : ∃ t, execUnknown s = .next t ∧ Effect .unknown s t := by
  refine serve_effect (fun f hr => ?_) fun f _ u r h => by cases h
  unfold unknownRequest at hr
  split at hr
  · cases hr
  next hreset =>
    split at hr
    next g hg =>
      split at hr
      · cases hr
      · cases hr; exact ⟨by simpa using hreset, hg⟩
    next => cases hr

theorem execTransactionStart_effect (s : State) :
    ∃ t, execTransactionStart s = .next t ∧ Effect .transactionStart s t := by
  unfold execTransactionStart
  split
  · exact ⟨s, rfl, .nothing⟩
  · split
    · exact ⟨_, rfl, .pins (low := s.resetLow) (inhn := s.inhn) (gates := s.gates) (.inl rfl)⟩
    next hreset => exact ⟨_, rfl, .starts (by simpa using hreset)⟩

theorem execTransactionEnd_effect (sdi : List Bool) (s : State) :
    ∃ t, execTransactionEnd sdi s = .next t ∧ Effect (.transactionEnd sdi) s t := by
  unfold execTransactionEnd
  split
  · exact ⟨_, rfl, .pins (low := s.resetLow) (inhn := s.inhn) (gates := s.gates) (.inl rfl)⟩
  next tr htr => exact ⟨_, rfl, .ends rfl htr⟩

theorem execTakeRequest_effect (s : State) : ∃ t, execTakeRequest s = .next t ∧ Effect .takeRequest s t := by
  unfold execTakeRequest
  split
  next f rest hqueue hidle =>
    split
    next h =>
      rw [Bool.and_eq_true, Bool.not_eq_true'] at h
      exact ⟨_, rfl, .takes rfl h.1 hqueue hidle h.2⟩
    next => exact ⟨s, rfl, .nothing⟩
  next => exact ⟨s, rfl, .nothing⟩

theorem execDriveLine_effect (s : State) : ∃ t, execDriveLine s = .next t ∧ Effect .driveLine s t := by
  unfold execDriveLine
  split
  · exact ⟨s, rfl, .nothing⟩
  next f hf =>
    have hserving := serving_of_inProgress ((requestOf_eq_some_iff _ _ _).1 hf)
    split
    · exact ⟨_, rfl, .refused hserving⟩
    · split
      · exact ⟨s, rfl, .nothing⟩
      · exact ⟨_, rfl, .drives hserving⟩

theorem execQuadEdge_effect (n : AxisNo) (a b : Level) (s : State) :
    ∃ t, execQuadEdge n a b s = .next t ∧ Effect (.quadEdge n a b) s t := by
  unfold execQuadEdge
  simp only
  split
  · exact ⟨_, rfl, .axisPins⟩
  next hrun =>
    simp only [not_or, Bool.not_eq_true, Bool.not_eq_false] at hrun
    have key : ∀ u, TrackerMove True n
        (setAxis n { s.axes[n] with xa := a, xb := b, lastPair := (a, b) } s) u → Effect (.quadEdge n a b) s u :=
      fun u h => .source (a := { s.axes[n] with xa := a, xb := b, lastPair := (a, b) }) hrun.1 (.inl ⟨hrun.2, rfl⟩)
        ⟨rfl, .inl rfl⟩ h
    split
    · exact ⟨_, rfl, key _ .still⟩
    · exact ⟨_, rfl, key _ (countStep_move n true _)⟩
    · exact ⟨_, rfl, key _ (countStep_move n false _)⟩
    · exact ⟨_, rfl, key _ (decodeError_move n _)⟩

theorem execSampleTimerExpiry_effect (n : AxisNo) (s : State) :
    ∃ t, execSampleTimerExpiry n s = .next t ∧ Effect (.sampleTimerExpiry n) s t := by
  unfold execSampleTimerExpiry
  simp only
  split
  next due hdue hpoll =>
    split
    · exact ⟨s, rfl, .nothing⟩
    next h =>
      simp only [not_or, Bool.not_eq_true, ne_eq, Decidable.not_not] at h
      exact ⟨_, rfl, .sampleDue h.1 h.2 hdue⟩
  · exact ⟨s, rfl, .nothing⟩

/-- A poll in flight ends with its outcome. -/
theorem endPoll_effect {c : Instr} {n : AxisNo} {s : State} {bits : List Bool} (hreset : s.resetLow = false)
    (hpoll : s.axes[n].poll = some bits) (o : PollOutcome) : Effect c s (endPoll n o s) := by
  obtain ⟨a, ha, hseen, h⟩ := endPoll_move n o s
  exact .source hreset (.inr ⟨by rw [hpoll]; rfl, ha⟩) hseen h

theorem execPollTimeout_effect (n : AxisNo) (s : State) :
    ∃ t, execPollTimeout n s = .next t ∧ Effect (.pollTimeout n) s t := by
  unfold execPollTimeout
  split
  · exact ⟨s, rfl, .nothing⟩
  next bits hpoll =>
    split
    · exact ⟨s, rfl, .nothing⟩
    next h =>
      simp only [not_or, Bool.not_eq_true] at h
      exact ⟨_, rfl, endPoll_effect h.1 hpoll .bad⟩

theorem execPollEnd_effect (n : AxisNo) (reply : List Bool) (s : State) :
    ∃ t, execPollEnd n reply s = .next t ∧ Effect (.pollEnd n reply) s t := by
  unfold execPollEnd
  split
  · exact ⟨s, rfl, .nothing⟩
  next bits hpoll =>
    split
    · exact ⟨s, rfl, .nothing⟩
    next hreset =>
      rw [Bool.not_eq_true] at hreset
      split
      next o _ => exact ⟨_, rfl, endPoll_effect hreset hpoll o⟩
      next => exact ⟨_, rfl, .polled hreset (by rw [hpoll]; rfl)⟩

/-- An index event references the axis at the sum that check 5 of R73 judges, or does nothing. -/
theorem indexSeen_move (n : AxisNo) (s : State) : TrackerMove True n s (indexSeen n s) := by
  unfold indexSeen
  simp only
  split
  next h => exact .referenced h.1 fun hsum => isRangeFault_sum hsum (.inr h.2.2)
  next => exact .still

theorem execIndexEvent_effect (n : AxisNo) (s : State) :
    ∃ t, execIndexEvent n s = .next t ∧ Effect (.indexEvent n) s t := by
  unfold execIndexEvent
  split
  · exact ⟨s, rfl, .nothing⟩
  next hrun =>
    simp only [not_or, Bool.not_eq_true, Bool.not_eq_false] at hrun
    refine ⟨_, rfl, .source (a := s.axes[n]) hrun.1 (.inl ⟨hrun.2, rfl⟩) ⟨rfl, .inl rfl⟩ ?_⟩
    rw [setAxis_self]
    exact indexSeen_move n s

theorem execDwellEnd_effect (l : LineNo) (s : State) : ∃ t, execDwellEnd l s = .next t ∧ Effect (.dwellEnd l) s t := by
  unfold execDwellEnd
  split
  · exact ⟨s, rfl, .nothing⟩
  next due hdue =>
    split
    · exact ⟨s, rfl, .nothing⟩
    next hreset => exact ⟨_, rfl, .dwellEnds (by simpa using hreset) hdue⟩

theorem execPulseExpiry_effect (l : LineNo) (s : State) :
    ∃ t, execPulseExpiry l s = .next t ∧ Effect (.pulseExpiry l) s t := by
  unfold execPulseExpiry
  split
  · exact ⟨s, rfl, .nothing⟩
  next due hdue =>
    split
    · exact ⟨s, rfl, .nothing⟩
    next hreset => exact ⟨_, rfl, .pulseEnds (by simpa using hreset) hdue⟩

/-- What every command does: it answers a next state, which is one of the effects above. -/
theorem exec_effect (c : Instr) (s : State) : ∃ t, exec c s = .next t ∧ Effect c s t := by
  cases c with
  | hardwareReset => exact ⟨_, rfl, .reset rfl⟩
  | resetEnd => exact ⟨_, rfl, .pins (scsn := s.scsn) (inhn := s.inhn) (gates := s.gates) (.inr rfl)⟩
  | transactionStart => exact execTransactionStart_effect s
  | transactionEnd sdi => exact execTransactionEnd_effect sdi s
  | takeRequest => exact execTakeRequest_effect s
  | unknown => exact execUnknown_effect s
  | addTrip => exact recordRequest_effect fun f => grants_addTrip f s
  | modifyTrip => exact recordRequest_effect fun f => grants_modifyTrip f s
  | retireTrip => exact recordRequest_effect fun f => grants_retireTrip f s
  | holdTrip => exact recordRequest_effect fun f => grants_holdTrip f s
  | armTrip => exact recordRequest_effect fun f => grants_armTrip f s
  | queryTrip => exact request_effect fun _ hf => grants_queryTrip hf s
  | scanAxis => exact request_effect fun _ hf => grants_scanAxis hf s
  | getBracket => exact request_effect fun f _ => grants_getBracket f s
  | wipeStore => exact request_effect fun f _ => grants_wipeStore f s
  | readNotices => exact request_effect fun _ hf => grants_readNotices hf s
  | ackNotices => exact request_effect fun f _ => grants_ackNotices f s
  | openBatch => exact request_effect fun f _ => grants_openBatch f s
  | stagedAddTrip => exact recordRequest_effect fun f => grants_stagedAddTrip f s
  | stagedModifyTrip => exact recordRequest_effect fun f => grants_stagedModifyTrip f s
  | stagedRetireTrip => exact recordRequest_effect fun f => grants_stagedRetireTrip f s
  | stagedHoldTrip => exact recordRequest_effect fun f => grants_stagedHoldTrip f s
  | stagedArmTrip => exact recordRequest_effect fun f => grants_stagedArmTrip f s
  | commitBatch => exact request_effect fun f _ => grants_commitBatch f s
  | discardBatch => exact request_effect fun f _ => grants_discardBatch f s
  | configAxis => exact request_effect fun f _ => grants_configAxis f s
  | unparkAxis => exact request_effect fun f _ => grants_unparkAxis f s
  | establishAxis => exact request_effect fun f _ => grants_establishAxis f s
  | resumeAxis => exact request_effect fun f _ => grants_resumeAxis f s
  | parkAxis => exact request_effect fun f _ => grants_parkAxis f s
  | axisStatus => exact request_effect fun f _ => grants_axisStatus f s
  | postPosition => exact request_effect fun _ hf => grants_postPosition hf s
  | driveLine => exact execDriveLine_effect s
  | configLine => exact request_effect fun f _ => grants_configLine f s
  | lineStatus => exact request_effect fun f _ => grants_lineStatus f s
  | quadEdge n a b => exact execQuadEdge_effect n a b s
  | indexEvent n => exact execIndexEvent_effect n s
  | sampleTimerExpiry n => exact execSampleTimerExpiry_effect n s
  | pollTimeout n => exact execPollTimeout_effect n s
  | pollEnd n reply => exact execPollEnd_effect n reply s
  | dwellEnd l => exact execDwellEnd_effect l s
  | pulseExpiry l => exact execPulseExpiry_effect l s
  | inhibitChange level =>
    exact ⟨_, rfl, .pins (low := s.resetLow) (scsn := s.scsn) (gates := s.gates) (.inl rfl)⟩
  | gateChange g level => exact ⟨_, rfl, .pins (low := s.resetLow) (scsn := s.scsn) (inhn := s.inhn) (.inl rfl)⟩

theorem effect_of_exec {c : Instr} {s t : State} (h : exec c s = .next t) : Effect c s t := by
  obtain ⟨u, hu, he⟩ := exec_effect c s
  rw [h] at hu
  cases hu
  exact he

/-- A step is a tick, or the effect of the front command on the queue's rest. -/
theorem step_cases {s t : State} (h : step s = .next t) :
    t = { s with now := s.now + 1 } ∨ ∃ c rest, Effect c { s with pending := rest } t := by
  unfold step at h
  split at h
  · cases h
    exact .inl rfl
  next c rest _ => exact .inr ⟨c, rest, effect_of_exec h⟩

end Sys2Proof.Machine
end

section
/-! What every command leaves of the trip store and of the batch, and of the queues: the part of its effect that the invariants of the
store and of the port speak of. -/

namespace Sys2Proof.Machine

/-! ### The walk at the store -/

/-- What a walk leaves of the store at one met record (R94, R97). -/
def meetAtStore (gates : Vector Level 4) (sp : Span) (d : Travel) (parts : List Stretch) (st : Store) (i : SlotNo) : Store :=
  match liveAt st i with
  | some r => if fires gates d r then fireAtStore sp d parts i r st else st
  | none => st

/-- What the walk of an update of axis `n` from `p` to `p'` leaves of the store. -/
def walkAtStore (gates : Vector Level 4) (n : AxisNo) (sp : Span) (p p' : Int) (st : Store) : Store :=
  match travelOf sp p p' with
  | none => st
  | some d => (metSet st n d (crossed sp d p p')).foldl (meetAtStore gates sp d (crossed sp d p p')) st

theorem gates_meet (sp : Span) (d : Travel) (parts : List Stretch) (s : State) (i : SlotNo) :
    (meet sp d parts s i).gates = s.gates := by
  obtain h | ⟨r, -, -, h⟩ := meet_cases sp d parts s i
  · rw [h]
  · rw [h, fire_frame]

theorem store_meet (sp : Span) (d : Travel) (parts : List Stretch) (s : State) (i : SlotNo) :
    (meet sp d parts s i).store = meetAtStore s.gates sp d parts s.store i := by
  cases hr : liveAt s.store i with
  | none => simp only [meet, meetAtStore, hr]
  | some r =>
    simp only [meet, meetAtStore, hr]
    split
    · exact store_fire sp d parts i r s
    · rfl

theorem store_foldl_meet (sp : Span) (d : Travel) (parts : List Stretch) (met : List SlotNo) (s : State) :
    (met.foldl (meet sp d parts) s).store = met.foldl (meetAtStore s.gates sp d parts) s.store := by
  induction met generalizing s with
  | nil => rfl
  | cons i met ih => rw [List.foldl_cons, List.foldl_cons, ih, gates_meet, store_meet]

theorem store_walk (n : AxisNo) (sp : Span) (p p' : Int) (s : State) :
    (walk n sp p p' s).store = walkAtStore s.gates n sp p p' s.store := by
  cases hd : travelOf sp p p' with
  | none => simp only [walk, walkAtStore, hd]
  | some d =>
    simp only [walk, walkAtStore, hd]
    exact store_foldl_meet sp _ _ _ s

theorem store_positionUpdate (n : AxisNo) (p' : Int) (s : State) :
    (positionUpdate n p' s).store =
      settle (walkAtStore s.gates n s.axes[n].config.span s.axes[n].position p' s.store) := by
  simp only [positionUpdate, setStore_store, store_walk]

/-- What holds before a walk and is kept by every firing of an ARMED record holds after the walk. -/
theorem walkAtStore_induction {P : Store → Prop} {gates : Vector Level 4} {n : AxisNo} {sp : Span} {p p' : Int} {st : Store}
    (h0 : P st)
    (hfire : ∀ (d : Travel) (parts : List Stretch) (i : SlotNo) (r : TripRecord) (st : Store), P st →
      liveAt st i = some r → r.state = .armed → P (fireAtStore sp d parts i r st)) :
    P (walkAtStore gates n sp p p' st) := by
  unfold walkAtStore
  split
  · exact h0
  next d _ =>
    refine List.foldlRecOn _ _ h0 fun st' h' i _ => ?_
    unfold meetAtStore
    split
    next r hr =>
      split
      next hf => exact hfire d _ i r st' h' hr ((fires_iff _ _ _).1 hf).1
      next => exact h'
    next => exact h'

/-! ### The store and the batch -/

/-- The batch is as it was. -/
abbrev SameBatch (s t : State) : Prop :=
  t.manager.batchOpen = s.manager.batchOpen ∧ t.manager.staging = s.manager.staging

/-- What a command can leave of the trip store and of the batch. -/
inductive StoreMove (s t : State) : Prop where
  | kept (hst : t.store = s.store) (hbatch : SameBatch s t)
  | reset (hst : t.store = {}) (hopen : t.manager.batchOpen = false) (hstaging : t.manager.staging = [])
  | edited {f : Frame} {st : Store} (h : StoreEdit f s st) (hst : t.store = settle st) (hbatch : SameBatch s t)
  | noticed {entries : Vector AxisEntry 8} (hst : t.store = settle { s.store with axisNotices := entries })
      (hbatch : SameBatch s t)
  | updated {n : AxisNo} {sp : Span} {p p' : Int} (hstate : s.axes[n].state = .tracking)
      (hst : t.store = settle (walkAtStore s.gates n sp p p' s.store)) (hbatch : SameBatch s t)
  | opened (hclosed : s.manager.batchOpen = false) (hst : t.store = s.store) (hopen : t.manager.batchOpen = true)
      (hstaging : t.manager.staging = [])
  | staged {e : StagedEntry} (hop : ∀ fields h, e.op ≠ .add fields h) (hst : t.store = s.store)
      (hopen : s.manager.batchOpen = true) (hroom : s.manager.staging.length < 24) (hopen' : t.manager.batchOpen = true)
      (hstaging : t.manager.staging = s.manager.staging ++ [e])
  | stagedAdd {f : Frame} {fields : TripFields} {i : SlotNo} {tag : Byte} (hread : readTripFields (configs s) f = .ok fields)
      (hfree : s.store.slots[i].content = .free) (hst : t.store = reserve i (newRecord fields) s.store)
      (hopen : s.manager.batchOpen = true) (hroom : s.manager.staging.length < 24) (hopen' : t.manager.batchOpen = true)
      (hstaging : t.manager.staging = s.manager.staging ++ [⟨.add fields (handleOf s.store i), tag⟩])
  | closed {st : Store} (h : BatchEnd s st) (hst : t.store = settle st) (hopen : t.manager.batchOpen = false)
      (hstaging : t.manager.staging = [])

theorem store_raise (n : AxisNo) (change : AxisEntry → AxisEntry) (s : State) :
    (raise n change s).store =
      settle { s.store with axisNotices := put s.store.axisNotices n (change s.store.axisNotices[n]) } := rfl

/-- A finished DRIVE-LINE leaves the batch alone. -/
theorem sameBatch_finishDrive (l : LineNo) (o : Option LineClaim) (s : State) : SameBatch s (finishDrive l o s) := by
  obtain h | ⟨f, -, h⟩ := finishDrive_cases l o s <;> rw [h] <;> exact ⟨rfl, rfl⟩

theorem sameBatch_claimArrives (l : LineNo) (k : LineClaim) (s : State) : SameBatch s (claimArrives l k s) :=
  sameBatch_finishDrive l _ (setLine l _ s)

theorem sameBatch_applyHead (l : LineNo) (s : State) : SameBatch s (applyHead l s) := by
  unfold applyHead
  split
  · exact ⟨rfl, rfl⟩
  · exact sameBatch_finishDrive l _ (setLine l _ s)

theorem SameBatch.trans {s t u : State} (h : SameBatch s t) (h' : SameBatch t u) : SameBatch s u :=
  ⟨h'.1.trans h.1, h'.2.trans h.2⟩

theorem sameBatch_lineRequestAt {l : LineNo} {s t : State} (h : lineRequestAt l s = some t) : SameBatch s t := by
  obtain ⟨f, c, -, -, -, rfl⟩ | ⟨f, u, r, hu, -, rfl⟩ := lineRequestAt_cases h
  · exact sameBatch_claimArrives l c s
  · obtain ⟨-, hc⟩ | ⟨-, hc⟩ := hu
    · obtain ⟨k, p, -, rfl⟩ := configLine_eq_ok hc
      exact ⟨rfl, rfl⟩
    · obtain ⟨k, -, rfl⟩ := lineStatus_eq_ok hc
      exact ⟨rfl, rfl⟩

theorem sameBatch_beforeClaim (l : LineNo) (s : State) : SameBatch s (beforeClaim l s) := by
  obtain ⟨-, h⟩ | ⟨t, ht, h | h⟩ := beforeClaim_cases l s <;> rw [h]
  · exact ⟨rfl, rfl⟩
  · exact ⟨rfl, rfl⟩
  · exact sameBatch_lineRequestAt (s := { s with choices := s.choices + 1 }) ht

theorem sameBatch_walk (n : AxisNo) (sp : Span) (p p' : Int) (s : State) : SameBatch s (walk n sp p p' s) :=
  walk_induction (P := SameBatch s) n sp p p' s ⟨rfl, rfl⟩ fun t _ _ r ht _ _ _ _ =>
    ht.trans ((sameBatch_beforeClaim r.line t).trans (sameBatch_claimArrives r.line (claimOf r) _))

theorem sameBatch_positionUpdate (n : AxisNo) (p' : Int) (s : State) : SameBatch s (positionUpdate n p' s) :=
  sameBatch_walk n s.axes[n].config.span s.axes[n].position p' s

/-- A tracker leaves the store but for a notice or a walk, and the batch alone. -/
theorem TrackerMove.storeMove {mayFault : Prop} {n : AxisNo} {s u : State} (h : TrackerMove mayFault n s u) : StoreMove s u := by
  cases h with
  | still => exact .kept rfl ⟨rfl, rfl⟩
  | moved => exact .kept rfl ⟨rfl, rfl⟩
  | faulted => exact .noticed (store_raise ..) ⟨rfl, rfl⟩
  | suspected => exact .noticed (store_raise ..) ⟨rfl, rfl⟩
  | referenced => exact .noticed (store_raise ..) ⟨rfl, rfl⟩
  | @updated p' hstate => exact .updated hstate (store_positionUpdate n p' s) (sameBatch_positionUpdate n p' s)

/-- The front end of an axis is no part of the store, so its changes may come before. -/
theorem StoreMove.of_setAxis {n : AxisNo} {a : Axis} {s u : State} (ha : a.state = s.axes[n].state)
    (h : TrackerMove True n (setAxis n a s) u) : StoreMove s u := by
  cases h with
  | still => exact .kept rfl ⟨rfl, rfl⟩
  | moved => exact .kept rfl ⟨rfl, rfl⟩
  | faulted => exact .noticed (store_raise ..) ⟨rfl, rfl⟩
  | suspected => exact .noticed (store_raise ..) ⟨rfl, rfl⟩
  | referenced => exact .noticed (store_raise ..) ⟨rfl, rfl⟩
  | @updated p' hstate =>
    rw [axes_setAxis_self, ha] at hstate
    exact .updated hstate (store_positionUpdate n p' _) (sameBatch_positionUpdate n p' (setAxis n a s))

theorem store_unpark (n : AxisNo) (s : State) : StoreMove s (unpark n s) := by
  unfold unpark
  simp only
  split
  · exact .noticed (store_raise ..) ⟨rfl, rfl⟩
  all_goals exact .kept rfl ⟨rfl, rfl⟩

theorem AxisRequest.storeMove {f : Frame} {n : AxisNo} {s u : State} (h : AxisRequest f n s u) : StoreMove s u := by
  cases h with
  | unparked => exact store_unpark n s
  | established => exact .noticed (store_raise ..) ⟨rfl, rfl⟩
  | posted => exact (candidate_move (mayFault := True) n _ s fun _ => trivial).storeMove
  | _ => exact .kept rfl ⟨rfl, rfl⟩

theorem free_of_slotFor {cfg : AxisNo → AxisConfig} {n : AxisNo} {st : Store} {i : SlotNo} (h : slotFor cfg n st = .ok i) :
    IsLowestFree st i := by
  unfold slotFor at h
  split at h
  · cases h
  next j hj =>
    split at h
    · cases h
    · cases h
      exact (lowestFree_eq_some_iff st i).1 hj

theorem Granted.storeMove {f : Frame} {s u : State} {r : Reply} (h : Granted f s u r) : StoreMove s u := by
  cases h with
  | reports => exact .kept rfl ⟨rfl, rfl⟩
  | edits h => exact .edited h rfl ⟨rfl, rfl⟩
  | closes h => exact .closed h rfl rfl rfl
  | opens hclosed => exact .opened hclosed rfl rfl rfl
  | stages hopen hroom hop => exact .staged hop rfl hopen hroom hopen rfl
  | stagesAdd hopen hroom hread hslot => exact .stagedAdd hread (free_of_slotFor hslot).1 rfl hopen hroom hopen rfl
  | axis h => exact h.storeMove
  | polarity => exact .kept rfl ⟨rfl, rfl⟩
  | dwellCut => exact .kept rfl ⟨rfl, rfl⟩

/-- The completion of a request is no part of the store or of the batch. -/
theorem StoreMove.respond {f : Frame} {r : Reply} {s u : State} (h : StoreMove s u) : StoreMove s (respond f r u) := by
  cases h with
  | kept hst hb => exact .kept hst hb
  | reset hst ho hs => exact .reset hst ho hs
  | edited h hst hb => exact .edited h hst hb
  | noticed hst hb => exact .noticed hst hb
  | updated hstate hst hb => exact .updated hstate hst hb
  | opened hc hst ho hs => exact .opened hc hst ho hs
  | staged hop hst ho hroom ho' hs => exact .staged hop hst ho hroom ho' hs
  | stagedAdd hread hfree hst ho hroom ho' hs => exact .stagedAdd hread hfree hst ho hroom ho' hs
  | closed h hst ho hs => exact .closed h hst ho hs

/-- What every command leaves of the store and of the batch. -/
theorem Effect.storeMove {c : Instr} {s t : State} (h : Effect c s t) : StoreMove s t := by
  cases h with
  | granted _ h => exact h.storeMove.respond
  | reset => exact .reset rfl rfl rfl
  | @source n a _ _ _ hseen h => exact .of_setAxis (by rw [hseen.frame]) h
  | @drives _ l k => exact .kept (by rw [claimArrives_frame]) (sameBatch_claimArrives l k s)
  | @dwellEnds l => exact .kept (by rw [applyHead_frame]; rfl) (sameBatch_applyHead l _)
  | _ => exact .kept rfl ⟨rfl, rfl⟩

/-! ### The attention line -/

/-- A settled store has its attention line at the notice set. -/
theorem attentionFollows_of_settled {t : State} {st : Store} (h : t.store = settle st) : AttentionFollows t := by
  unfold AttentionFollows
  rw [h]
  rfl

theorem noticesWaiting_empty : noticesWaiting {} = false := by
  rw [← Bool.not_eq_true, noticesWaiting_eq_true_iff]
  rintro (⟨n, h⟩ | ⟨i, r, h, -⟩)
  · simp [hasAxisEntry] at h
  · simp [liveAt] at h

/-- A reserved record has no entry in the notice set, so a reservation leaves the set as it was (R140). -/
theorem noticesWaiting_reserve {st : Store} {i : SlotNo} (hfree : st.slots[i].content = .free) (r : TripRecord) :
    noticesWaiting (reserve i r st) = noticesWaiting st := by
  have hlive : ∀ j, liveAt (reserve i r st) j = liveAt st j := by
    intro j
    by_cases hj : i = j
    · subst hj
      rw [Fin.getElem_fin] at hfree
      simp [liveAt, reserve, hfree]
    · have hv : i.val ≠ j.val := fun e => hj (Fin.ext e)
      simp [liveAt, reserve, hv]
  rw [Bool.eq_iff_iff, noticesWaiting_eq_true_iff, noticesWaiting_eq_true_iff]
  simp only [hlive]
  rfl

/-- Settles O53: a command settles the attention line, or leaves the line and the notice set as they were. -/
theorem stepKeepsAttention : Obligations.StepKeepsAttention := by
  intro s t hs hstep
  obtain rfl | ⟨c, rest, he⟩ := step_cases hstep
  · exact hs
  · cases he.storeMove with
    | kept hst => unfold AttentionFollows; rw [hst]; exact hs
    | reset hst => unfold AttentionFollows; rw [hst]; exact noticesWaiting_empty.symm
    | opened _ hst => unfold AttentionFollows; rw [hst]; exact hs
    | staged _ hst => unfold AttentionFollows; rw [hst]; exact hs
    | stagedAdd _ hfree hst => unfold AttentionFollows; rw [hst, noticesWaiting_reserve hfree]; exact hs
    | edited _ hst => exact attentionFollows_of_settled hst
    | noticed hst => exact attentionFollows_of_settled hst
    | updated _ hst => exact attentionFollows_of_settled hst
    | closed _ hst => exact attentionFollows_of_settled hst

end Sys2Proof.Machine
end

section
/-! What every command leaves of the line drivers, of the two queues and of the request in progress (R122, R152, R155, R197). -/

namespace Sys2Proof.Machine

/-! ### Line drivers -/

/-- Every line driver has the property. -/
def AllLines (Q : LineDriver → Prop) (s : State) : Prop :=
  ∀ l : LineNo, Q s.lines[l]

/-- A property of a line driver that each of its own operations keeps. -/
structure KeptByDriver (Q : LineDriver → Prop) : Prop where
  initial : Q {}
  arrive : ∀ now c d, Q d → Q (arrive now c d).1
  head : ∀ now h rest d, d.claims = h :: rest → Q d → Q (applyClaim now h { d with claims := rest })
  polarity : ∀ p d, Q d → Q { d with polarity := p }
  dwellCut : ∀ d, Q d → Q { d with dwellCut := false }
  expiry : ∀ d, Q d → Q { d with level := .inactive, pulseEnd := none }

theorem allLines_setLine {Q : LineDriver → Prop} {s : State} {d : LineDriver} (l : LineNo) (hs : AllLines Q s) (hd : Q d) :
    AllLines Q (setLine l d s) := by
  intro k
  by_cases hk : k = l
  · subst hk; rw [lines_setLine_self]; exact hd
  · rw [setLine_lines, getElem_put_ne _ _ _ _ hk]; exact hs k

theorem allLines_unpark {Q : LineDriver → Prop} (n : AxisNo) {s : State} (hs : AllLines Q s) : AllLines Q (unpark n s) := by
  unfold unpark
  simp only
  split <;> exact hs

section Kept

variable {Q : LineDriver → Prop} (hQ : KeptByDriver Q)
include hQ

theorem allLines_claimArrives (l : LineNo) (k : LineClaim) {s : State} (hs : AllLines Q s) :
    AllLines Q (claimArrives l k s) := by
  intro j
  rw [lines_claimArrives]
  exact allLines_setLine l hs (hQ.arrive s.now k _ (hs l)) j

theorem allLines_applyHead (l : LineNo) {s : State} (hs : AllLines Q s) : AllLines Q (applyHead l s) := by
  unfold applyHead
  split
  · exact hs
  next h rest hc =>
    rw [finishDrive_frame]
    exact allLines_setLine l hs (hQ.head s.now h rest _ hc (hs l))

theorem allLines_lineRequestAt {l : LineNo} {s t : State} (h : lineRequestAt l s = some t) (hs : AllLines Q s) :
    AllLines Q t := by
  obtain ⟨f, c, -, -, -, rfl⟩ | ⟨f, u, r, hu, -, rfl⟩ := lineRequestAt_cases h
  · exact allLines_claimArrives hQ l c hs
  · obtain ⟨-, hc⟩ | ⟨-, hc⟩ := hu
    · obtain ⟨k, p, -, rfl⟩ := configLine_eq_ok hc
      exact allLines_setLine k hs (hQ.polarity p _ (hs k))
    · obtain ⟨k, -, rfl⟩ := lineStatus_eq_ok hc
      exact allLines_setLine k hs (hQ.dwellCut _ (hs k))

theorem allLines_beforeClaim (l : LineNo) {s : State} (hs : AllLines Q s) : AllLines Q (beforeClaim l s) := by
  obtain ⟨-, h⟩ | ⟨t, ht, h | h⟩ := beforeClaim_cases l s <;> rw [h]
  · exact hs
  · exact hs
  · exact allLines_lineRequestAt hQ ht hs

theorem allLines_positionUpdate (n : AxisNo) (p' : Int) {s : State} (hs : AllLines Q s) :
    AllLines Q (positionUpdate n p' s) :=
  walk_induction (P := AllLines Q) n s.axes[n].config.span s.axes[n].position p' s hs fun _ _ _ r ht _ _ _ _ =>
    allLines_claimArrives hQ r.line (claimOf r) (allLines_beforeClaim hQ r.line ht)

theorem TrackerMove.allLines {mayFault : Prop} {n : AxisNo} {s u : State} (h : TrackerMove mayFault n s u)
    (hs : AllLines Q s) : AllLines Q u := by
  cases h with
  | updated => exact allLines_positionUpdate hQ n _ hs
  | _ => exact hs

theorem Granted.allLines {f : Frame} {s u : State} {r : Reply} (h : Granted f s u r) (hs : AllLines Q s) : AllLines Q u := by
  cases h with
  | axis h =>
    cases h with
    | unparked => exact allLines_unpark _ hs
    | posted => exact (candidate_move (mayFault := True) _ _ s fun _ => trivial).allLines hQ hs
    | _ => exact hs
  | @polarity l p => exact allLines_setLine l hs (hQ.polarity p _ (hs l))
  | @dwellCut l => exact allLines_setLine l hs (hQ.dwellCut _ (hs l))
  | _ => exact hs

/-- Every command keeps what the operations of a driver keep. -/
theorem Effect.allLines {c : Instr} {s t : State} (h : Effect c s t) (hs : AllLines Q s) : AllLines Q t := by
  cases h with
  | granted _ h => exact h.allLines hQ hs
  | reset =>
    intro l
    have hl : ({ resetBlocks s with resetLow := true } : State).lines[l] = {} := by simp [resetBlocks, State.reset]
    rw [hl]
    exact hQ.initial
  | source _ _ _ h => exact h.allLines hQ hs
  | drives => exact allLines_claimArrives hQ _ _ hs
  | dwellEnds => exact allLines_applyHead hQ _ hs
  | @pulseEnds l => exact allLines_setLine l hs (hQ.expiry _ (hs l))
  | _ => exact hs

end Kept

@[simp] theorem claims_applyClaim (now : Nat) (c : LineClaim) (d : LineDriver) : (applyClaim now c d).claims = d.claims := by
  unfold applyClaim
  split <;> rfl

/-- No operation of a driver lets its claim list grow past its places (R122, R123). -/
theorem claimsBounded_keptByDriver : KeptByDriver fun d => d.claims.length ≤ 16 where
  initial := Nat.zero_le 16
  arrive now c d hd := by
    unfold Machine.arrive
    split
    next h =>
      split
      · simp [h]
      · simp
    next h rest hc =>
      split
      next hlt =>
        have : d.claims.length < 16 := hlt
        simp only [List.length_append, List.length_singleton]
        omega
      next =>
        rw [hc, List.length_cons] at hd
        simp only [claims_applyClaim, List.length_append, List.length_singleton]
        exact hd
  head now h rest d hc hd := by
    rw [hc, List.length_cons] at hd
    rw [claims_applyClaim]
    exact Nat.le_of_succ_le hd
  polarity _ _ hd := hd
  dwellCut _ hd := hd
  expiry _ hd := hd

/-! ### The request in progress and the queues -/

/-- The completion codes of a request that is not refused (R177). -/
def IsGrant (c : Completion) : Prop :=
  c = .done ∨ c = .accepted ∨ c = .staged ∨ c = .commitFailed

/-- The queues and the request in progress stay, or the request in progress is answered with the group kept free for it, with a code
that `may` admits. -/
inductive Answers (may : Completion → Prop) (s t : State) : Prop where
  | kept (hreq : t.port.requestQueue = s.port.requestQueue) (hresp : t.port.responseQueue = s.port.responseQueue)
      (hm : t.manager.inProgress = s.manager.inProgress)
  | answered {f : Frame} {r : Reply} (hmay : may r.code) (hf : s.manager.inProgress = some f) (hone : 1 ≤ r.parts.length)
      (hroom : r.parts.length ≤ partsNeeded f) (hreq : t.port.requestQueue = s.port.requestQueue)
      (hresp : t.port.responseQueue = s.port.responseQueue ++ responseGroup f r) (hm : t.manager.inProgress = none)

/-- An answered request is no longer in progress, so no second answer follows. -/
theorem Answers.trans {may : Completion → Prop} {s t u : State} (h : Answers may s t) (h' : Answers may t u) :
    Answers may s u := by
  cases h with
  | kept hreq hresp hm =>
    cases h' with
    | kept hreq' hresp' hm' => exact .kept (hreq'.trans hreq) (hresp'.trans hresp) (hm'.trans hm)
    | answered hmay hf hone hroom hreq' hresp' hm' =>
      exact .answered hmay (hm ▸ hf) hone hroom (hreq'.trans hreq) (hresp ▸ hresp') hm'
  | answered hmay hf hone hroom hreq hresp hm =>
    cases h' with
    | kept hreq' hresp' hm' =>
      exact .answered hmay hf hone hroom (hreq'.trans hreq) (hresp'.trans hresp) (hm'.trans hm)
    | answered _ hf' => rw [hm] at hf'; cases hf'

theorem answers_refl {may : Completion → Prop} (s : State) : Answers may s s := .kept rfl rfl rfl

/-- One part is always kept free. -/
theorem answers_answered {may : Completion → Prop} {s : State} {f : Frame} (hf : s.manager.inProgress = some f)
    {c : Completion} (hc : may c) (items : List Byte) : Answers may s (answered f c items s) :=
  .answered (r := ⟨c, [items]⟩) hc hf (Nat.le_refl 1) (one_le_partsNeeded f) rfl rfl rfl

theorem answers_finishDrive (l : LineNo) (o : Option LineClaim) (s : State) : Answers IsGrant s (finishDrive l o s) := by
  obtain h | ⟨f, hf, h⟩ := finishDrive_cases l o s <;> rw [h]
  · exact answers_refl s
  · exact answers_answered hf.2.1 (.inl rfl) _

theorem answers_claimArrives (l : LineNo) (k : LineClaim) (s : State) : Answers IsGrant s (claimArrives l k s) :=
  Answers.trans (t := setLine l (arrive s.now k s.lines[l]).1 s) (.kept rfl rfl rfl) (answers_finishDrive l _ _)

theorem answers_applyHead (l : LineNo) (s : State) : Answers IsGrant s (applyHead l s) := by
  unfold applyHead
  split
  · exact answers_refl s
  next h rest _ =>
    exact Answers.trans (t := setLine l (applyClaim s.now h { s.lines[l] with claims := rest }) s) (.kept rfl rfl rfl)
      (answers_finishDrive l _ _)

theorem answers_lineRequestAt {l : LineNo} {s t : State} (h : lineRequestAt l s = some t) : Answers IsGrant s t := by
  obtain ⟨f, c, -, -, -, rfl⟩ | ⟨f, u, r, hu, -, rfl⟩ := lineRequestAt_cases h
  · exact answers_claimArrives l c s
  · have hg : InProgress s f 23 ∧ configLine f s = .ok (u, r) ∨ InProgress s f 24 ∧ lineStatus f s = .ok (u, r) →
        s.manager.inProgress = some f ∧ Granted f s u r := by
      rintro (⟨hf, hc⟩ | ⟨hf, hc⟩)
      · exact ⟨hf.2.1, grants_configLine f s u r hc⟩
      · exact ⟨hf.2.1, grants_lineStatus f s u r hc⟩
    obtain ⟨hf, hgr⟩ := hg hu
    have hport : u.port = s.port := by
      obtain ⟨-, hc⟩ | ⟨-, hc⟩ := hu
      · obtain ⟨k, p, -, rfl⟩ := configLine_eq_ok hc; rfl
      · obtain ⟨k, -, rfl⟩ := lineStatus_eq_ok hc; rfl
    exact .answered hgr.code hf hgr.length.1 hgr.length.2 (by rw [respond_port, hport]) (by rw [respond_port, hport]) rfl

theorem answers_beforeClaim (l : LineNo) (s : State) : Answers IsGrant s (beforeClaim l s) := by
  obtain ⟨-, h⟩ | ⟨t, ht, h | h⟩ := beforeClaim_cases l s <;> rw [h]
  · exact answers_refl s
  · exact .kept rfl rfl rfl
  · exact Answers.trans (t := { s with choices := s.choices + 1 }) (.kept rfl rfl rfl) (answers_lineRequestAt ht)

theorem answers_positionUpdate (n : AxisNo) (p' : Int) (s : State) : Answers IsGrant s (positionUpdate n p' s) :=
  Answers.trans
    (walk_induction (P := Answers IsGrant s) n s.axes[n].config.span s.axes[n].position p' s (answers_refl s) fun t _ _ r ht _ _ _ _ =>
      ht.trans ((answers_beforeClaim r.line t).trans
        ((answers_claimArrives r.line (claimOf r) _).trans (.kept rfl rfl rfl))))
    (.kept rfl rfl rfl)

theorem TrackerMove.answers {mayFault : Prop} {n : AxisNo} {s u : State} (h : TrackerMove mayFault n s u) : Answers IsGrant s u := by
  cases h with
  | updated => exact answers_positionUpdate n _ s
  | _ => exact .kept rfl rfl rfl

theorem answers_unpark (n : AxisNo) (s : State) : Answers IsGrant s (unpark n s) := by
  unfold unpark
  simp only
  split <;> exact .kept rfl rfl rfl

/-- The queues and the request in progress are as they were. -/
structure SameQueues (s t : State) : Prop where
  requests : t.port.requestQueue = s.port.requestQueue
  responses : t.port.responseQueue = s.port.responseQueue
  inProgress : t.manager.inProgress = s.manager.inProgress

theorem requestOf_eq_none_of_code {s : State} {f : Frame} {code : Nat} (hf : s.manager.inProgress = some f)
    (hcode : u8 f 0 ≠ code) : requestOf code s = none := by
  rw [Option.eq_none_iff_forall_ne_some]
  intro g hg
  obtain ⟨-, hg, hc⟩ := (requestOf_eq_some_iff _ _ _).1 hg
  rw [hf] at hg
  cases hg
  exact hcode hc

/-- A walk while a request in progress is no line request moves the lines and the store, and its axis (R132). -/
theorem positionUpdate_of_code {s : State} {f : Frame} (hf : s.manager.inProgress = some f) (hcode : u8 f 0 = 21)
    (n : AxisNo) (p' : Int) : SameQueues s (positionUpdate n p' s) := by
  have h := walk_of_none (s := s) (requestOf_eq_none_of_code hf (by rw [hcode]; decide))
    (requestOf_eq_none_of_code hf (by rw [hcode]; decide)) (requestOf_eq_none_of_code hf (by rw [hcode]; decide)) n
    s.axes[n].config.span s.axes[n].position p'
  unfold positionUpdate
  rw [h]
  exact ⟨rfl, rfl, rfl⟩

theorem TrackerMove.sameQueues_of_code {mayFault : Prop} {s u : State} {f : Frame} {n : AxisNo}
    (h : TrackerMove mayFault n s u) (hf : s.manager.inProgress = some f) (hcode : u8 f 0 = 21) : SameQueues s u := by
  cases h with
  | updated => exact positionUpdate_of_code hf hcode n _
  | _ => exact ⟨rfl, rfl, rfl⟩

/-- Until it is answered, a granted request leaves the queues and itself as they are. -/
theorem Granted.sameQueues {f : Frame} {s u : State} {r : Reply} (hf : s.manager.inProgress = some f)
    (h : Granted f s u r) : SameQueues s u := by
  cases h with
  | @axis n _ _ _ h =>
    cases h with
    | unparked =>
      unfold unpark
      simp only
      split <;> exact ⟨rfl, rfl, rfl⟩
    | @posted v hcode =>
      exact (candidate_move (mayFault := True) n v s fun _ => trivial).sameQueues_of_code hf hcode
    | _ => exact ⟨rfl, rfl, rfl⟩
  | _ => exact ⟨rfl, rfl, rfl⟩

/-- What a command can do to the queues: it answers the request in progress or leaves them, or it is one of the three that move them
otherwise. -/
inductive QueueMove (may : Completion → Prop) (c : Instr) (s t : State) : Prop where
  | answers (h : Answers may s t)
  | reset (hc : c = .hardwareReset) (hport : t.port = {}) (hm : t.manager = {})
  | ends {tr : Transaction} {sdi : List Bool} (hc : c = .transactionEnd sdi) (hport : t.port = endTransaction tr sdi s.port)
      (hm : t.manager = s.manager)
  | takes {f : Frame} {rest : List Frame} (hc : c = .takeRequest) (hqueue : s.port.requestQueue = f :: rest)
      (hroom : roomFor f s.port = true) (hport : t.port = { s.port with requestQueue := rest })
      (hm : t.manager.inProgress = some f)

/-- A refused request is answered and changes nothing else; otherwise only grants are answered. -/
theorem Effect.refused_or_queueMove {c : Instr} {s t : State} (h : Effect c s t) :
    (∃ (f : Frame) (e : Refused), s.manager.inProgress = some f ∧ t = Machine.answered f e.code e.items s) ∨ QueueMove IsGrant c s t := by
  cases h with
  | @refused f e hf => exact .inl ⟨f, e, hf.2, rfl⟩
  | @granted f u r hf h =>
    have hq := h.sameQueues hf.2
    exact .inr (.answers (.answered h.code hf.2 h.length.1 h.length.2 hq.requests (by rw [respond_port, ← hq.responses]) rfl))
  | reset hc => exact .inr (.reset hc rfl rfl)
  | ends hc => exact .inr (.ends hc rfl rfl)
  | takes hc _ hqueue _ hroom => exact .inr (.takes hc hqueue hroom rfl rfl)
  | @source n a _ _ _ _ h => exact .inr (.answers (Answers.trans (t := setAxis n a s) (.kept rfl rfl rfl) h.answers))
  | @drives _ l k => exact .inr (.answers (answers_claimArrives l k s))
  | @dwellEnds l due =>
    exact .inr (.answers
      (Answers.trans (t := advanceTo (due + Config.dwellTicks) s) (.kept rfl rfl rfl) (answers_applyHead l _)))
  | _ => exact .inr (.answers (.kept rfl rfl rfl))

theorem Effect.queueMove {c : Instr} {s t : State} (h : Effect c s t) : QueueMove (fun _ => True) c s t := by
  obtain ⟨f, e, hf, rfl⟩ | h := h.refused_or_queueMove
  · exact .answers (answers_answered hf trivial _)
  · cases h with
    | answers h =>
      cases h with
      | kept hreq hresp hm => exact .answers (.kept hreq hresp hm)
      | answered _ hf hone hroom hreq hresp hm => exact .answers (.answered trivial hf hone hroom hreq hresp hm)
    | reset hc hport hm => exact .reset hc hport hm
    | ends hc hport hm => exact .ends hc hport hm
    | takes hc hqueue hroom hport hm => exact .takes hc hqueue hroom hport hm

/-! ### The staging list -/

/-- A staged request is refused when the staging list is full (R179). -/
theorem StoreMove.staging_length_le {s t : State} (h : StoreMove s t) (hs : s.manager.staging.length ≤ 24) :
    t.manager.staging.length ≤ 24 := by
  cases h with
  | kept _ hb => exact hb.2 ▸ hs
  | edited _ _ hb => exact hb.2 ▸ hs
  | noticed _ hb => exact hb.2 ▸ hs
  | updated _ _ hb => exact hb.2 ▸ hs
  | reset _ _ h => simp [h]
  | opened _ _ _ h => simp [h]
  | closed _ _ _ h => simp [h]
  | staged _ _ _ hroom _ h => rw [h, List.length_append]; exact hroom
  | stagedAdd _ _ _ _ hroom _ h => rw [h, List.length_append]; exact hroom

/-! ### The places of the port -/

/-- The queues within their places, and room for the group of the request in progress. -/
def PortBounded (s : State) : Prop :=
  s.port.requestQueue.length ≤ 8 ∧ s.port.responseQueue.length ≤ 8 ∧
  ∀ f, s.manager.inProgress = some f → s.port.responseQueue.length + partsNeeded f ≤ 8

theorem queuesBounded_iff (s : State) :
    QueuesBounded s ↔ PortBounded s ∧ s.manager.staging.length ≤ 24 ∧ AllLines (fun d => d.claims.length ≤ 16) s := by
  simp only [QueuesBounded, PortBounded, AllLines, and_assoc]

theorem Answers.portBounded {may : Completion → Prop} {s t : State} (h : Answers may s t) (hs : PortBounded s) : PortBounded t := by
  obtain ⟨hreq, hresp, hprogress⟩ := hs
  cases h with
  | kept hreq' hresp' hm => exact ⟨hreq' ▸ hreq, hresp' ▸ hresp, by rw [hresp', hm]; exact hprogress⟩
  | @answered f r _ hf _ hroom hreq' hresp' hm =>
    have hparts := hprogress f hf
    refine ⟨hreq' ▸ hreq, ?_, by rw [hm]; simp⟩
    rw [hresp', List.length_append, length_responseGroup]
    omega

theorem length_afterSending_le (tr : Transaction) (clocks : Nat) (q : List ResponsePart) :
    (afterSending tr clocks q).length ≤ q.length := by
  unfold afterSending
  split
  · simp
  · exact Nat.le_refl _

/-- The end of a transaction appends a frame only while one of the 8 places is free (R201). -/
theorem portBounded_endTransaction {s t : State} {tr : Transaction} {sdi : List Bool}
    (hport : t.port = endTransaction tr sdi s.port) (hm : t.manager = s.manager) (hs : PortBounded s) : PortBounded t := by
  obtain ⟨hreq, hresp, hprogress⟩ := hs
  have hle := length_afterSending_le tr (tr.clocks + sdi.length) s.port.responseQueue
  refine ⟨?_, ?_, fun f hf => ?_⟩
  · rw [hport]
    simp only [endTransaction]
    split
    next hacc =>
      have hfree := ((judgeFrame_eq_accepted_iff _ _ _).1 hacc).2.2.2
      have : ¬ 8 ≤ s.port.requestQueue.length := of_decide_eq_false hfree
      rw [List.length_append, List.length_singleton]
      omega
    next => exact hreq
  · rw [hport]
    exact hle.trans hresp
  · rw [hm] at hf
    have hroom := hprogress f hf
    rw [hport]
    simp only [endTransaction]
    omega

theorem QueueMove.portBounded {may : Completion → Prop} {c : Instr} {s t : State} (h : QueueMove may c s t)
    (hs : PortBounded s) : PortBounded t := by
  cases h with
  | answers h => exact h.portBounded hs
  | reset _ hport hm => exact ⟨by rw [hport]; simp, by rw [hport]; simp, by rw [hm]; simp⟩
  | ends _ hport hm => exact portBounded_endTransaction hport hm hs
  | takes _ hqueue hroom hport hm =>
    obtain ⟨hreq, hresp, -⟩ := hs
    rw [hqueue, List.length_cons] at hreq
    refine ⟨by rw [hport]; exact Nat.le_of_succ_le hreq, by rw [hport]; exact hresp, fun g hg => ?_⟩
    rw [hm] at hg
    cases hg
    rw [hport]
    exact (roomFor_iff _ _).1 hroom

/-- Settles O54: a command moves the queues within their places, the staging list while it has one free, and the claim lists by the
operations of their drivers. -/
theorem stepKeepsQueuesBounded : Obligations.StepKeepsQueuesBounded := by
  intro s t hs hstep
  obtain rfl | ⟨c, rest, he⟩ := step_cases hstep
  · exact hs
  · obtain ⟨hport, hstaging, hlines⟩ := (queuesBounded_iff s).1 hs
    rw [queuesBounded_iff]
    exact ⟨he.queueMove.portBounded hport, he.storeMove.staging_length_le hstaging,
      he.allLines claimsBounded_keptByDriver hlines⟩

/-! ### What the queues show of a command -/

/-- The parts of a response group carry the code and the tag of its request, and their number (R153, R212). -/
theorem mem_responseGroup {f : Frame} {r : Reply} {p : ResponsePart} (hp : p ∈ responseGroup f r) :
    p.code = byteAt f 0 ∧ p.tag = byteAt f 1 ∧ p.completion = r.code ∧ p.parts = (responseGroup f r).length := by
  rw [length_responseGroup]
  unfold responseGroup at hp
  obtain ⟨⟨items, k⟩, -, rfl⟩ := List.mem_map.1 hp
  exact ⟨rfl, rfl, rfl, rfl⟩

/-- Settles O9: every command but a reset and the end of a transaction answers the request in progress or leaves the response queue. -/
theorem onlyItsOwnEventsMoveTheQueues : Obligations.OnlyItsOwnEventsMoveTheQueues := by
  intro c s t hreset hends hexec
  cases (effect_of_exec hexec).queueMove with
  | reset hc => exact absurd hc hreset
  | @ends tr sdi hc => exact absurd hc (hends sdi)
  | takes hc _ _ hport =>
    exact ⟨fun hne => absurd hc hne, [], by rw [hport, List.append_nil], fun hne => absurd rfl hne⟩
  | answers h =>
    cases h with
    | kept hreq hresp => exact ⟨fun _ => hreq, [], by rw [hresp, List.append_nil], fun hne => absurd rfl hne⟩
    | @answered f r _ hf _ hroom hreq hresp hm =>
      refine ⟨fun _ => hreq, responseGroup f r, hresp, fun _ => ⟨hm, ?_, f, hf, fun p hp => ?_⟩⟩
      · rw [length_responseGroup]
        exact hroom.trans (partsNeeded_le_three f)
      · obtain ⟨hcode, htag, -, hparts⟩ := mem_responseGroup hp
        exact ⟨hcode, htag, hparts⟩

theorem append_ne_self {α : Type} (l : List α) (x : α) : l ≠ l ++ [x] := by
  simp

/-- Settles O10: the one part appended is the answer of a refusal, which changes nothing else, since only grants are answered
otherwise. -/
theorem refusedRequestChangesNothing : Obligations.RefusedRequestChangesNothing := by
  intro c s t p hexec hp hdone haccepted hstaged hfailed
  obtain ⟨f, e, -, rfl⟩ | h := (effect_of_exec hexec).refused_or_queueMove
  · have hpart : partOf f e.code 1 1 e.items = p := by
      simpa [Machine.answered, completedWith] using hp
    rw [← hpart]
    rfl
  · cases h with
    | reset _ hport => simp [hport] at hp
    | @ends tr sdi _ hport =>
      have hle := length_afterSending_le tr (tr.clocks + sdi.length) s.port.responseQueue
      have hlen : (afterSending tr (tr.clocks + sdi.length) s.port.responseQueue).length
          = s.port.responseQueue.length + 1 := by
        rw [hport] at hp
        rw [show afterSending tr (tr.clocks + sdi.length) s.port.responseQueue = _ from hp, List.length_append,
          List.length_singleton]
      omega
    | takes _ _ _ hport => rw [hport] at hp; exact absurd hp (append_ne_self _ p)
    | answers h =>
      cases h with
      | kept _ hresp => rw [hresp] at hp; exact absurd hp (append_ne_self _ p)
      | @answered f r hgrant _ _ _ _ hresp =>
        have hgroup : responseGroup f r = [p] := List.append_cancel_left (hresp.symm.trans hp)
        obtain ⟨-, -, hcode, -⟩ := mem_responseGroup (f := f) (r := r) (p := p) (by rw [hgroup]; exact List.mem_singleton_self p)
        rw [← hcode] at hgrant
        rcases hgrant with h | h | h | h <;> contradiction

end Sys2Proof.Machine
end

section
/-! What every command leaves of the waiting commands, of the axes and of the line drivers: each stays in a legal state. -/

namespace Sys2Proof.Machine

/-! ### The waiting commands -/

theorem TrackerMove.pending {mayFault : Prop} {n : AxisNo} {s u : State} (h : TrackerMove mayFault n s u) :
    u.pending = s.pending := by
  cases h with
  | updated => rw [positionUpdate_frame]
  | _ => rfl

theorem AxisRequest.pending {f : Frame} {n : AxisNo} {s u : State} (h : AxisRequest f n s u) : u.pending = s.pending := by
  cases h with
  | unparked =>
    unfold unpark
    simp only
    split <;> rfl
  | posted => exact (candidate_move (mayFault := True) n _ s fun _ => trivial).pending
  | _ => rfl

theorem Granted.pending {f : Frame} {s u : State} {r : Reply} (h : Granted f s u r) : u.pending = s.pending := by
  cases h with
  | axis h => exact h.pending
  | _ => rfl

theorem Effect.pending {c : Instr} {s t : State} (h : Effect c s t) : t.pending = s.pending := by
  cases h with
  | granted _ h => exact h.pending
  | source _ _ _ h => exact h.pending
  | drives => rw [claimArrives_frame]
  | dwellEnds => rw [applyHead_frame]; rfl
  | _ => rfl

/-- Settles O2: every effect keeps the waiting commands. -/
theorem everyCommandAnswersNextAndKeepsTheQueue : Obligations.EveryCommandAnswersNextAndKeepsTheQueue := by
  intro c s
  obtain ⟨t, ht, he⟩ := exec_effect c s
  exact ⟨t, ht, he.pending⟩

/-! ### Configurations (R72, R73) -/

theorem within_eq_some_iff {lo hi n m : Nat} : within lo hi n = some m ↔ (lo ≤ n ∧ n ≤ hi) ∧ n = m := by
  unfold within
  split <;> simp_all

theorem rangeField_eq_ok_iff {byte lo hi n m : Nat} : rangeField byte lo hi n = .ok m ↔ (lo ≤ n ∧ n ≤ hi) ∧ n = m := by
  rw [rangeField, fieldOr_eq_ok_iff, within_eq_some_iff]

theorem inRange_linear_i32 (f : Frame) (k : Nat) : inRange .linear (i32 f k) = true := by
  rw [inRange_linear_iff]
  have hlo := BitVec.le_toInt (x := BitVec.ofNat 32 (u32 f k))
  have hhi := BitVec.toInt_lt (x := BitVec.ofNat 32 (u32 f k))
  unfold i32
  omega

theorem u16_le (f : Frame) (k : Nat) : u16 f k ≤ 65535 := by
  have h0 := (byteAt f k).isLt
  have h1 := (byteAt f (k + 1)).isLt
  unfold u16 u8
  omega

/-- A modulus is in its range when the span is ROTARY (R72). -/
def SpanLegal (sp : Span) : Prop :=
  match sp with
  | .linear => True
  | .rotary m => 16 ≤ m ∧ m ≤ 1073741824

theorem readSpan_legal {f : Frame} {sp : Span} (h : readSpan f = .ok sp) : SpanLegal sp := by
  unfold readSpan at h
  split at h
  · cases h; trivial
  · obtain ⟨m, hm, h⟩ := verdict_bind_eq_ok h
    cases h
    obtain ⟨hrange, rfl⟩ := rangeField_eq_ok_iff.1 hm
    exact hrange
  · cases h

/-- A configuration record that passes checks 3 to 5 of R73 is legal. -/
theorem readConfig_legal {f : Frame} {c : AxisConfig} (h : readConfig f = .ok c) (hmethod : methodFitsSource c = true)
    (hsum : sumFits c = true) : ConfigLegal c := by
  simp only [readConfig, verdict_bind_eq_ok_iff, rangeField_eq_ok_iff, verdict_pure, Except.ok.injEq] at h
  obtain ⟨source, -, invert, -, span, hspan, method, -, quota, ⟨⟨-, hquota⟩, rfl⟩, width, ⟨⟨hw, hw'⟩, rfl⟩, period,
    ⟨⟨hp, hp'⟩, rfl⟩, limit, ⟨⟨hl, hl'⟩, rfl⟩, rfl⟩ := h
  exact ⟨readSpan_legal hspan, inRange_linear_i32 f 11, inRange_linear_i32 f 15, u16_le f 19, hquota, hw, hw', hp, hp', hl,
    hl', hmethod, hsum⟩

theorem ConfigLegal.span {c : AxisConfig} (h : ConfigLegal c) : SpanLegal c.span := h.1

theorem ConfigLegal.sumFits {c : AxisConfig} (h : ConfigLegal c) : sumFits c = true := by
  obtain ⟨-, -, -, -, -, -, -, -, -, -, -, -, hsum⟩ := h
  exact hsum

theorem inRange_zero {sp : Span} (h : SpanLegal sp) : inRange sp 0 = true := by
  cases sp with
  | linear => decide
  | rotary m => rw [inRange_rotary_iff]; have : 16 ≤ m := h.1; omega

/-- A position that the part computes lies in the range of the axis unless it is a range fault (R10, R74, R78). -/
theorem inRange_reduce {sp : Span} {p : Int} (hsp : SpanLegal sp) (hp : isRangeFault sp p = false) :
    inRange sp (reduce sp p) = true := by
  cases sp with
  | linear => simpa [isRangeFault, reduce] using hp
  | rotary m =>
    have hm : 16 ≤ m := hsp.1
    rw [inRange_rotary_iff]
    exact ⟨Int.emod_nonneg p (by omega), Int.emod_lt_of_pos p (by omega)⟩

theorem isRangeFault_of_inRange {sp : Span} {p : Int} (hp : inRange sp p = true) : isRangeFault sp p = false := by
  cases sp <;> simp_all [isRangeFault]

/-! ### Axes -/

/-- The parts of a legal axis by their names. -/
structure AxisFacts (a : Axis) : Prop where
  config : ConfigLegal a.config
  seeking : a.seeking = true → a.state = .unreferenced
  decoder : a.decoderRunning = true ↔ a.config.source = .quad ∧ a.state ≠ .parked
  timer : a.sampleNext.isSome = true ↔ a.config.source = .link ∧ a.state ≠ .parked
  poll : a.poll.isSome = true → a.config.source = .link ∧ acts a.state = true
  host : a.config.source = .host → a.state ≠ .faulted
  failures : a.config.source = .link → a.state ≠ .parked → a.failures < a.config.failureLimit
  position : a.state ≠ .parked → inRange a.config.span a.position = true

theorem axisLegal_iff (a : Axis) : AxisLegal a ↔ AxisFacts a :=
  ⟨fun ⟨h1, h2, h3, h4, h5, h6, h7, h8⟩ => ⟨h1, h2, h3, h4, h5, h6, h7, h8⟩,
    fun ⟨h1, h2, h3, h4, h5, h6, h7, h8⟩ => ⟨h1, h2, h3, h4, h5, h6, h7, h8⟩⟩

theorem axesLegal_setAxis {s : State} {n : AxisNo} {a : Axis} (hs : AxesLegal s) (ha : AxisFacts a) :
    AxesLegal (setAxis n a s) := by
  intro k
  by_cases hk : k = n
  · subst hk; rw [axes_setAxis_self]; exact (axisLegal_iff a).2 ha
  · rw [setAxis_axes, getElem_put_ne _ _ _ _ hk]; exact hs k

theorem AxesLegal.facts {s : State} (hs : AxesLegal s) (n : AxisNo) : AxisFacts s.axes[n] :=
  (axisLegal_iff _).1 (hs n)

theorem ne_parked_of_acts {x : AxisState} (h : acts x = true) : x ≠ .parked := by
  rintro rfl; cases h

theorem AxisFacts.inRange_reached {a : Axis} (h : AxisFacts a) (hstate : a.state ≠ .parked) {p : Int} (hp : Reached a p) :
    inRange a.config.span p = true := by
  obtain rfl | ⟨exact, hfault, rfl⟩ := hp
  · exact h.position hstate
  · exact inRange_reduce h.config.span hfault

section Moves

variable {a : Axis} (h : AxisFacts a)
include h

theorem AxisFacts.moved {p : Int} (hp : Reached a p) : AxisFacts { a with position := p } :=
  { h with position := fun hstate => h.inRange_reached hstate hp }

/-- Neither a HOST axis nor one with a poll in flight is sent to FAULTED. -/
theorem AxisFacts.faulted (c : Cause) (hacts : acts a.state = true) (hsource : a.config.source ≠ .host) (hpoll : a.poll = none) :
    AxisFacts { a with state := .faulted, seeking := false, lastCause := c } where
  config := h.config
  seeking hseek := by cases hseek
  decoder := by simpa [ne_parked_of_acts hacts] using h.decoder
  timer := by simpa [ne_parked_of_acts hacts] using h.timer
  poll hsome := by rw [hpoll] at hsome; cases hsome
  host hhost := absurd hhost hsource
  failures hlink _ := h.failures hlink (ne_parked_of_acts hacts)
  position _ := h.position (ne_parked_of_acts hacts)

/-- An axis that tracks and one that is suspect differ in nothing that the other fields rest on. -/
theorem AxisFacts.restated {state : AxisState} {p : Int} (c : Cause) (hold : a.state = .tracking ∨ a.state = .suspect)
    (hnew : state = .tracking ∨ state = .suspect) (hp : Reached a p) :
    AxisFacts { a with state := state, lastCause := c, position := p } := by
  have hpark : a.state ≠ .parked := by rcases hold with h | h <;> rw [h] <;> decide
  have hpark' : state ≠ .parked := by rcases hnew with h | h <;> rw [h] <;> decide
  have hfaulted : state ≠ .faulted := by rcases hnew with h | h <;> rw [h] <;> decide
  exact
    { config := h.config
      seeking := fun hseek => by have := h.seeking hseek; rcases hold with h | h <;> rw [h] at this <;> cases this
      decoder := by simpa [hpark, hpark'] using h.decoder
      timer := by simpa [hpark, hpark'] using h.timer
      poll := fun hsome => ⟨(h.poll hsome).1, by rcases hnew with h | h <;> rw [h] <;> rfl⟩
      host := fun _ => hfaulted
      failures := fun hlink _ => h.failures hlink hpark
      position := fun _ => h.inRange_reached hpark hp }

theorem AxisFacts.referenced {p : Int} (hstate : a.state = .unreferenced) (hp : isRangeFault a.config.span p = false) :
    AxisFacts { a with state := .tracking, seeking := false, position := reduce a.config.span p } where
  config := h.config
  seeking hseek := by cases hseek
  decoder := by simpa [hstate] using h.decoder
  timer := by simpa [hstate] using h.timer
  poll hsome := ⟨(h.poll hsome).1, rfl⟩
  host _ := by simp
  failures hlink _ := h.failures hlink (by rw [hstate]; decide)
  position _ := inRange_reduce h.config.span hp

end Moves

theorem axesLegal_raise {n : AxisNo} {change : AxisEntry → AxisEntry} {s : State} (hs : AxesLegal s) :
    AxesLegal (raise n change s) := hs

/-- The tracker keeps the axes legal where it sends no HOST axis and no axis with a poll in flight to FAULTED. -/
theorem TrackerMove.axesLegal {mayFault : Prop} {n : AxisNo} {s u : State} (h : TrackerMove mayFault n s u)
    (hfault : mayFault → s.axes[n].config.source ≠ .host ∧ s.axes[n].poll = none) (hs : AxesLegal s) : AxesLegal u := by
  have ha := hs.facts n
  cases h with
  | still => exact hs
  | moved hp => exact axesLegal_setAxis hs (ha.moved hp)
  | @faulted c hmay hacts => exact axesLegal_raise (axesLegal_setAxis hs (ha.faulted c hacts (hfault hmay).1 (hfault hmay).2))
  | @suspected c p hstate hp => exact axesLegal_raise (axesLegal_setAxis hs (ha.restated c (.inl hstate) (.inr rfl) hp))
  | referenced hstate hp =>
    exact axesLegal_raise (axesLegal_setAxis hs (ha.referenced hstate (hp ha.config.sumFits)))
  | updated hstate hp =>
    intro k
    rw [axes_positionUpdate]
    exact axesLegal_setAxis hs (ha.moved hp) k

/-- What a source event changes at its front end keeps the axis legal. -/
theorem AxisFacts.seen {a a' : Axis} (h : AxisFacts a) (hseen : SourceSeen a a')
    (hpoll : a'.poll = a.poll ∨ a'.poll = none) : AxisFacts a' := by
  obtain ⟨hframe, hfailures⟩ := hseen
  have hcount : a.config.source = .link → a.state ≠ .parked → a'.failures < a.config.failureLimit := by
    intro hlink hstate
    have hlt := h.failures hlink hstate
    omega
  have hpoll' : a'.poll.isSome = true → a.config.source = .link ∧ acts a.state = true := by
    intro hsome
    rcases hpoll with e | e
    · exact h.poll (e ▸ hsome)
    · rw [e] at hsome; cases hsome
  rw [hframe]
  exact { h with poll := hpoll', failures := hcount }

theorem axisFacts_configured {a : Axis} {c : AxisConfig} (h : AxisFacts a) (hstate : a.state = .parked) (hc : ConfigLegal c) :
    AxisFacts { a with config := c } where
  config := hc
  seeking := h.seeking
  decoder := by simpa [hstate] using h.decoder
  timer := by simpa [hstate] using h.timer
  poll hsome := by
    have hacts := (h.poll hsome).2
    rw [hstate] at hacts
    cases hacts
  host _ := by simp [hstate]
  failures _ hpark := absurd hstate hpark
  position hpark := absurd hstate hpark

theorem axisFacts_parked {a : Axis} (h : AxisFacts a) : AxisFacts (parked a) where
  config := h.config
  seeking hseek := by cases hseek
  decoder := by simp [parked]
  timer := by simp [parked]
  poll hsome := by cases hsome
  host _ := by simp [parked]
  failures _ hpark := absurd rfl hpark
  position hpark := absurd rfl hpark

/-- The front end of a PARKED axis starts as its state leaves PARKED (R49, R50). -/
theorem axisFacts_started {a : Axis} {now : Nat} {state : AxisState} {p : Int} (h : AxisFacts a) (hstate : a.state = .parked)
    (hnew : state = .unreferenced ∨ state = .tracking) (hp : inRange a.config.span p = true) :
    AxisFacts { startFrontEnd now a with warn := false, state := state, seeking := false, position := p } := by
  have hrun : a.decoderRunning = false := by
    have := h.decoder
    rw [hstate] at this
    simpa using this
  have htimer : a.sampleNext = none := by
    have := h.timer
    rw [hstate] at this
    simpa using this
  have hpoll : a.poll = none := by
    cases hp : a.poll with
    | none => rfl
    | some bits =>
      have := (h.poll (by rw [hp]; rfl)).2
      rw [hstate] at this
      cases this
  have hpark : state ≠ .parked := by rcases hnew with h | h <;> rw [h] <;> decide
  have hfaulted : state ≠ .faulted := by rcases hnew with h | h <;> rw [h] <;> decide
  have hlimit : 1 ≤ a.config.failureLimit := by
    obtain ⟨-, -, -, -, -, -, -, -, -, hlimit, -⟩ := h.config
    exact hlimit
  unfold startFrontEnd
  cases hsource : a.config.source with
  | quad =>
    exact ⟨h.config, by simp, by simp [hsource, hpark], by simp [hsource, htimer], by simp [hpoll], by simp [hsource],
      by simp [hsource], fun _ => hp⟩
  | link =>
    exact ⟨h.config, by simp, by simp [hsource, hrun], by simp [hsource, hpark], by simp [hpoll], by simp [hsource],
      fun _ _ => hlimit, fun _ => hp⟩
  | host =>
    exact ⟨h.config, by simp, by simp [hsource, hrun], by simp [hsource, htimer], by simp [hpoll], fun _ => hfaulted,
      by simp [hsource], fun _ => hp⟩

theorem config_startFrontEnd (now : Nat) (a : Axis) : (startFrontEnd now a).config = a.config := by
  unfold startFrontEnd
  split <;> rfl

theorem axesLegal_unpark {n : AxisNo} {s : State} (hs : AxesLegal s) (hstate : s.axes[n].state = .parked) :
    AxesLegal (unpark n s) := by
  have ha := hs.facts n
  have hconfig := config_startFrontEnd s.now s.axes[n]
  unfold unpark
  simp only
  split
  next hmethod =>
    rw [hconfig] at hmethod
    have hp := inRange_reduce ha.config.span (isRangeFault_sum ha.config.sumFits (.inl hmethod))
    have hfacts := axisFacts_started (now := s.now) ha hstate (.inr rfl) hp
    rw [← hconfig] at hfacts
    simp only [reference, axes_setAxis_self, setAxis_setAxis]
    exact axesLegal_raise (axesLegal_setAxis hs hfacts)
  all_goals exact axesLegal_setAxis hs (axisFacts_started ha hstate (.inl rfl) (inRange_zero ha.config.span))

theorem AxisRequest.axesLegal {f : Frame} {n : AxisNo} {s u : State} (h : AxisRequest f n s u) (hs : AxesLegal s) :
    AxesLegal u := by
  have ha := hs.facts n
  cases h with
  | configured hstate hread hmethod hsum =>
    exact axesLegal_setAxis hs (axisFacts_configured ha hstate (readConfig_legal hread hmethod hsum))
  | unparked hstate => exact axesLegal_unpark hs hstate
  | seeks hstate => exact axesLegal_setAxis hs { ha with seeking := fun _ => hstate }
  | established hstate hp => exact axesLegal_raise (axesLegal_setAxis hs (ha.referenced hstate hp))
  | resumed hstate => exact axesLegal_setAxis hs (ha.restated s.axes[n].lastCause (.inr hstate) (.inl rfl) (.inl rfl))
  | parkedAlready => exact hs
  | parks => exact axesLegal_setAxis hs (axisFacts_parked ha)
  | @posted v _ _ hv =>
    have hmove : TrackerMove False n s (candidate n v s) :=
      candidate_move n v s fun hfault => by rw [isRangeFault_of_inRange hv] at hfault; cases hfault
    exact hmove.axesLegal False.elim hs

theorem Granted.axesLegal {f : Frame} {s u : State} {r : Reply} (h : Granted f s u r) (hs : AxesLegal s) : AxesLegal u := by
  cases h with
  | axis h => exact h.axesLegal hs
  | _ => exact hs

theorem axisFacts_sampleDue {a : Axis} {due next : Nat} (h : AxisFacts a) (hlink : a.config.source = .link)
    (hdue : a.sampleNext = some due) :
    AxisFacts { a with sampleNext := some next, poll := if acts a.state then some [] else none } :=
  { h with
    timer := by simpa [hdue] using h.timer
    poll := fun hsome => by
      cases hacts : acts a.state with
      | true => exact ⟨hlink, rfl⟩
      | false => rw [hacts] at hsome; cases hsome }

theorem axisFacts_reset (xa xb : Level) : AxisFacts { ({} : Axis) with xa := xa, xb := xb } := by
  have h : AxisFacts {} :=
    (axisLegal_iff _).1 ⟨⟨trivial, by decide, by decide, by decide, by decide, by decide, by decide, by decide, by decide,
      by decide, by decide, by decide, by decide⟩, by decide, by decide, by decide, by decide, by decide, by decide, by decide⟩
  exact { h with }

/-- Every command keeps every axis legal. -/
theorem Effect.axesLegal {c : Instr} {s t : State} (h : Effect c s t) (hs : AxesLegal s) : AxesLegal t := by
  cases h with
  | granted _ h => exact h.axesLegal hs
  | reset =>
    intro n
    have hn : ({ resetBlocks s with resetLow := true } : State).axes[n] =
        { ({} : Axis) with xa := s.axes[n].xa, xb := s.axes[n].xb } := by simp [resetBlocks]
    rw [hn]
    exact (axisLegal_iff _).2 (axisFacts_reset _ _)
  | @axisPins n => exact axesLegal_setAxis hs { hs.facts n with }
  | @sampleDue n due _ hlink hdue => exact axesLegal_setAxis hs (axisFacts_sampleDue (hs.facts n) hlink hdue)
  | @polled n bits _ hpoll => exact axesLegal_setAxis hs { hs.facts n with poll := fun _ => (hs.facts n).poll hpoll }
  | @source n a u _ hrun hseen h =>
    have ha := hs.facts n
    have hconfig : a.config = s.axes[n].config := by rw [hseen.frame]
    have ha' : AxisFacts a := ha.seen hseen (hrun.imp And.right And.right)
    have hfault : a.config.source ≠ .host ∧ a.poll = none := by
      rw [hconfig]
      obtain ⟨hdec, hpoll⟩ | ⟨hpoll, hnone⟩ := hrun
      · have hquad := (ha.decoder.1 hdec).1
        refine ⟨by rw [hquad]; decide, ?_⟩
        rw [hpoll]
        cases hp : s.axes[n].poll with
        | none => rfl
        | some bits =>
          have hlink := (ha.poll (by rw [hp]; rfl)).1
          rw [hquad] at hlink
          cases hlink
      · exact ⟨by rw [(ha.poll hpoll).1]; decide, hnone⟩
    exact h.axesLegal (fun _ => by rw [axes_setAxis_self]; exact hfault) (axesLegal_setAxis hs ha')
  | drives => rw [claimArrives_frame]; exact hs
  | dwellEnds => rw [applyHead_frame]; exact hs
  | _ => exact hs

/-! ### Lines -/

theorem dwellStart_applyClaim (now : Nat) (c : LineClaim) (d : LineDriver) : (applyClaim now c d).dwellStart = some now := by
  unfold applyClaim
  split <;> rfl

/-- Only PULSE leaves a pulse timer, and it leaves the line ACTIVE (R125, R126). -/
theorem level_of_pulseEnd_applyClaim {now : Nat} {c : LineClaim} {d : LineDriver}
    (h : (applyClaim now c d).pulseEnd.isSome = true) : (applyClaim now c d).level = .active := by
  unfold applyClaim at h ⊢
  split at h
  · cases h
  · cases h
  · cases h
  · rfl

theorem lineLegal_applyClaim (now : Nat) (c : LineClaim) (d : LineDriver) : LineLegal (applyClaim now c d) :=
  ⟨level_of_pulseEnd_applyClaim, fun _ => by rw [dwellStart_applyClaim]; rfl⟩

theorem lineLegal_keptByDriver : KeptByDriver LineLegal where
  initial := ⟨by decide, by decide⟩
  arrive now c d hd := by
    unfold Machine.arrive
    split
    next hempty =>
      split
      · exact lineLegal_applyClaim now c d
      next hdwell =>
        refine ⟨hd.1, fun _ => ?_⟩
        cases hstart : d.dwellStart with
        | none => exact absurd ((dwellComplete_iff now d).2 (.inl hstart)) hdwell
        | some t => rfl
    next h rest hc =>
      split
      · exact ⟨hd.1, fun _ => hd.2 (by rw [hc]; simp)⟩
      · exact lineLegal_applyClaim now h _
  head now h rest d _ _ := lineLegal_applyClaim now h _
  polarity _ _ hd := hd
  dwellCut _ hd := hd
  expiry _ hd := ⟨by simp, hd.2⟩

/-- Settles O56: the axes are legal after each effect, and the operations of a driver keep it legal. -/
theorem stepKeepsAxesAndLinesLegal : Obligations.StepKeepsAxesAndLinesLegal := by
  intro s t hstep
  obtain rfl | ⟨c, rest, he⟩ := step_cases hstep
  · exact ⟨id, id⟩
  · exact ⟨fun hs => he.axesLegal hs, fun hs => he.allLines lineLegal_keptByDriver hs⟩

end Sys2Proof.Machine
end

section
/-! The operations of the trip store, once: what each part of a command does to it, so that an invariant of the store is a matter of its
operations alone. -/

namespace Sys2Proof.Machine

/-! ### Records as they start -/

/-- A record as ADD-TRIP makes it: in an initial state, with the store's own fields as R14 sets them. -/
structure Initial (r : TripRecord) : Prop where
  state : r.state = .armed ∨ r.state = .dormant
  predCount : r.predCount = 0
  pending : noKinds r.pending = true

theorem initialStateOf_eq_some {n : Nat} {x : RecordState} (h : initialStateOf n = some x) : x = .armed ∨ x = .dormant := by
  unfold initialStateOf at h
  split at h
  · cases h; exact .inr rfl
  · cases h; exact .inl rfl
  · cases h

theorem readTripFields_state {cfg : AxisNo → AxisConfig} {f : Frame} {fields : TripFields}
    (h : readTripFields cfg f = .ok fields) : fields.state = .armed ∨ fields.state = .dormant := by
  simp only [readTripFields, verdict_bind_eq_ok_iff, fieldOr_eq_ok_iff, verdict_pure, Except.ok.injEq] at h
  obtain ⟨axis, -, position, -, qualifier, -, action, -, line, -, _, -, pitch, -, repeats, -, successor, -, gate, -,
    notify, -, endMode, -, state, hstate, rfl⟩ := h
  exact initialStateOf_eq_some hstate

theorem initial_newRecord {cfg : AxisNo → AxisConfig} {f : Frame} {fields : TripFields}
    (h : readTripFields cfg f = .ok fields) : Initial (newRecord fields) :=
  ⟨readTripFields_state h, rfl, rfl⟩

theorem Initial.not_spent {r : TripRecord} (h : Initial r) : r.state ≠ .spent := by
  rcases h.state with h | h <;> rw [h] <;> decide

/-! ### The release chain -/

/-- What every single release keeps, the chain of a release check keeps (R21, R22). -/
theorem releaseFrom_induction {P : Store → Prop}
    (hstep : ∀ st h r, P st → liveAs st h = some r → releasable r = true → P (unlink r.successor (freeSlot h.slot st)))
    (fuel : Nat) (h : Handle) (st : Store) (h0 : P st) : P (releaseFrom fuel h st) := by
  induction fuel generalizing h st with
  | zero => exact h0
  | succ fuel ih =>
    unfold releaseFrom
    split
    · exact h0
    next r hr =>
      split
      next hrel =>
        have hnext := hstep st h r h0 hr hrel
        split
        next hs => rw [hs] at hnext; exact hnext
        next h' hs => rw [hs] at hnext; exact ih h' _ hnext
      next => exact h0

theorem releaseCheckOf_induction {P : Store → Prop}
    (hstep : ∀ st h r, P st → liveAs st h = some r → releasable r = true → P (unlink r.successor (freeSlot h.slot st)))
    (o : Option Handle) (st : Store) (h0 : P st) : P (releaseCheckOf o st) := by
  cases o with
  | none => exact h0
  | some h => exact releaseFrom_induction hstep 384 h st h0

/-! ### A firing -/

/-- An armed successor is DORMANT before and keeps all but its state; any other successor is left as it is (R101). -/
theorem armSuccessor_cases (o : Option Handle) (st : Store) :
    armSuccessor o st = st ∨
    ∃ h r, o = some h ∧ liveAs st h = some r ∧ r.state = .dormant ∧
      armSuccessor o st = setLive h.slot { r with state := .armed } st := by
  unfold armSuccessor
  split
  · exact .inl rfl
  next h =>
    split
    next r hr =>
      split
      next hd => exact .inr ⟨h, r, rfl, hr, hd, rfl⟩
      next => exact .inl rfl
    next => exact .inl rfl

/-- Arming a successor leaves an ARMED record as it is. -/
theorem liveAt_armSuccessor {st : Store} {i : SlotNo} {r : TripRecord} (hr : liveAt st i = some r) (ha : r.state = .armed)
    (o : Option Handle) : liveAt (armSuccessor o st) i = some r := by
  obtain h | ⟨k, x, -, hx, hd, h⟩ := armSuccessor_cases o st <;> rw [h]
  · exact hr
  · have hne : k.slot ≠ i := by
      rintro rfl
      rw [((liveAs_eq_some_iff st k x).1 hx).2] at hr
      cases hr
      rw [hd] at ha
      cases ha
    rw [liveAt_setLive, if_neg hne, hr]

/-- The store of a firing after steps 2 to 4, before the fired record moves. -/
def afterSuccessor (d : Travel) (i : SlotNo) (r : TripRecord) (st : Store) : Store :=
  armSuccessor r.successor (setLive i (counted d r) st)

/-- The record of a firing with its repeats value counted down. -/
def countedDown (d : Travel) (r : TripRecord) : TripRecord :=
  { counted d r with repeats := r.repeats.map (· - 1) }

/-- Steps 5 to 7 of a firing: the record stays, is re-placed, or becomes SPENT and is checked for release (R103 to R108). -/
theorem fireAtStore_cases (sp : Span) (d : Travel) (parts : List Stretch) (i : SlotNo) (r : TripRecord) (st : Store) :
    fireAtStore sp d parts i r st = setLive i (countedDown d r) (afterSuccessor d i r st) ∨
    (∃ q, fireAtStore sp d parts i r st = rePlace i (rearmed d parts q (countedDown d r)) (afterSuccessor d i r st)) ∨
    fireAtStore sp d parts i r st = becomeSpent i (countedDown d r) (afterSuccessor d i r st) := by
  unfold fireAtStore afterArming
  simp only
  split
  · exact .inr (.inr rfl)
  · split
    · exact .inl rfl
    · split
      · exact .inr (.inl ⟨_, rfl⟩)
      · exact .inr (.inr rfl)

/-- The record of a firing that is re-placed at `q` (R107, R108). -/
theorem rearmed_eq (d : Travel) (parts : List Stretch) (q : Int) (r : TripRecord) :
    rearmed d parts q r =
      { r with
        position := q
        state := if overtakes d parts r.position q then .held else r.state
        pending := if overtakes d parts r.position q then { r.pending with overtaken := true } else r.pending } := by
  unfold rearmed
  split <;> rfl

/-! ### Entries of a batch -/

/-- What a committed entry does to the store, with the record whose count it lowered (R187, R189). -/
inductive CommitEffect (st : Store) : StagedOp → Store → Option Handle → Prop where
  | added {fields : TripFields} {h : Handle} {r : TripRecord} (hres : st.slots[h.slot].content = .reserved r)
      (hsucc : successorLive st r.successor = .ok ()) : CommitEffect st (.add fields h) (enliven h.slot r st) none
  | modified {h : Handle} {ch : Changes} {r : TripRecord} (hlive : liveAs st h = some r) (hstate : r.state ≠ .spent)
      (hsucc : checkSuccessor h ch st = .ok ()) :
      CommitEffect st (.modify h ch) (modifyRecord h r ch st) (formerSuccessor r ch)
  | retired {h : Handle} {r : TripRecord} (hlive : liveAs st h = some r) (hpred : r.predCount = 0) :
      CommitEffect st (.retire h) (retireRecord h r st) r.successor
  | stateSet {op : StagedOp} {h : Handle} {r : TripRecord} {next : RecordState} (hop : ∀ fields k, op ≠ .add fields k)
      (hlive : liveAs st h = some r) (hstate : r.state ≠ .spent) (hnext : next = .held ∨ next = .armed) :
      CommitEffect st op (setLive h.slot { r with state := next } st) none

theorem commitAdd_eq_ok {h : Handle} {st st' : Store} (hok : commitAdd h st = .ok st') :
    ∃ r, st.slots[h.slot].content = .reserved r ∧ successorLive st r.successor = .ok () ∧ st' = enliven h.slot r st := by
  unfold commitAdd at hok
  split at hok
  next r hres =>
    obtain ⟨_, hsucc, hok⟩ := verdict_bind_eq_ok hok
    cases hok
    exact ⟨r, hres, hsucc, rfl⟩
  · cases hok
  · cases hok

theorem commitState_eq_ok {next : RecordState} {h : Handle} {st st' : Store} (hok : commitState next h st = .ok st') :
    ∃ r, liveAs st h = some r ∧ r.state ≠ .spent ∧ st' = setLive h.slot { r with state := next } st := by
  obtain ⟨r, hr, hok⟩ := verdict_bind_eq_ok hok
  obtain ⟨hstate, rfl⟩ := setState_eq_ok_iff.1 hok
  exact ⟨r, (resolve_eq_ok_iff _ _ _).1 hr, hstate, rfl⟩

theorem commitEntry_effect {cfg : AxisNo → AxisConfig} {op : StagedOp} {st st' : Store} {o : Option Handle}
    (hok : commitEntry cfg op st = .ok (st', o)) : CommitEffect st op st' o := by
  unfold commitEntry at hok
  split at hok
  next fields h =>
    obtain ⟨x, hx, hok⟩ := verdict_bind_eq_ok hok
    cases hok
    obtain ⟨r, hres, hsucc, rfl⟩ := commitAdd_eq_ok hx
    exact .added hres hsucc
  next h ch =>
    simp only [commitModify, verdict_bind_eq_ok_iff, resolve_eq_ok_iff, require_ok_iff, exists_const, decide_eq_true_eq,
      verdict_pure, Except.ok.injEq, Prod.mk.injEq] at hok
    obtain ⟨r, hlive, hstate, _, -, _, hsucc, rfl, rfl⟩ := hok
    exact .modified hlive hstate hsucc
  next h =>
    simp only [commitRetire, verdict_bind_eq_ok_iff, resolve_eq_ok_iff, require_ok_iff, exists_const, decide_eq_true_eq,
      verdict_pure, Except.ok.injEq, Prod.mk.injEq] at hok
    obtain ⟨r, hlive, hpred, rfl, rfl⟩ := hok
    exact .retired hlive hpred
  next h =>
    obtain ⟨x, hx, hok⟩ := verdict_bind_eq_ok hok
    cases hok
    obtain ⟨r, hlive, hstate, rfl⟩ := commitState_eq_ok hx
    exact .stateSet (by simp) hlive hstate (.inl rfl)
  next h =>
    obtain ⟨x, hx, hok⟩ := verdict_bind_eq_ok hok
    cases hok
    obtain ⟨r, hlive, hstate, rfl⟩ := commitState_eq_ok hx
    exact .stateSet (by simp) hlive hstate (.inr rfl)

/-- What each committed entry keeps, a staging list that passes keeps; `P` may speak of the entries that are still to come and of the
records to be checked for release. -/
theorem commitEntries_induction {cfg : AxisNo → AxisConfig} {P : List StagedEntry → Store → List Handle → Prop}
    (hstep : ∀ e rest st lowered st' o, P (e :: rest) st lowered → CommitEffect st e.op st' o →
      P rest st' (lowered ++ o.toList))
    (k : Nat) (entries : List StagedEntry) (st : Store) (lowered : List Handle) {st' : Store} {lowered' : List Handle}
    (h0 : P entries st lowered) (hpass : commitEntries cfg k entries st lowered = .passed st' lowered') :
    P [] st' lowered' := by
  induction entries generalizing k st lowered with
  | nil => cases hpass; exact h0
  | cons e rest ih =>
    unfold commitEntries at hpass
    split at hpass
    · cases hpass
    next x o hok => exact ih (k + 1) x _ (hstep e rest st lowered x o h0 (commitEntry_effect hok)) hpass

/-! ### Invariants of the store -/

/-- The record keeps what the store's bookkeeping rests on: its place, its link and count, whether it is listed, and its fire count. -/
structure SameBooks (r r' : TripRecord) : Prop where
  axis : r'.axis = r.axis
  position : r'.position = r.position
  successor : r'.successor = r.successor
  predCount : r'.predCount = r.predCount
  listed : listed r'.state = listed r.state

/-- A property of the store that the requests keep which need no batch, each with its release checks: the attention line and the notices
are no part of it. -/
structure KeptByEdits (P : Store → Prop) : Prop where
  frame : ∀ st st', st'.slots = st.slots → st'.lists = st.lists → st'.occupancy = st.occupancy → P st → P st'
  touched : ∀ i r r' st, P st → liveAt st i = some r → SameBooks r r' → r'.fireCount = r.fireCount → P (setLive i r' st)
  modified : ∀ h r ch st, P st → liveAs st h = some r → r.state ≠ .spent → checkSuccessor h ch st = .ok () →
    P (modifyRecord h r ch st)
  retired : ∀ h r st, P st → liveAs st h = some r → r.predCount = 0 → P (retireRecord h r st)
  released : ∀ st h r, P st → liveAs st h = some r → releasable r = true → P (unlink r.successor (freeSlot h.slot st))

/-- A property of the store that firings keep as well. -/
structure KeptByFirings (P : Store → Prop) : Prop extends KeptByEdits P where
  counted : ∀ i r d st, P st → liveAt st i = some r → r.state = .armed → P (setLive i (counted d r) st)
  replaced : ∀ i r r' st, P st → liveAt st i = some r → r.state = .armed → r'.axis = r.axis → r'.successor = r.successor →
    r'.predCount = r.predCount → r'.state ≠ .spent → P (rePlace i r' st)
  spent : ∀ i r r' st, P st → liveAt st i = some r → r.state = .armed → r'.axis = r.axis → r'.successor = r.successor →
    r'.predCount = r.predCount → r'.state = .spent → P (setLive i r' (unlist r.axis i st))

/-- A property of the store that every operation keeps. -/
structure KeptByStore (P : Store → Prop) : Prop extends KeptByFirings P where
  empty : P {}
  added : ∀ i r st, P st → st.slots[i].content = .free → Initial r → successorLive st r.successor = .ok () →
    P (enliven i r (raiseOccupancy r.axis st))
  committed : ∀ i r st, P st → st.slots[i].content = .reserved r → successorLive st r.successor = .ok () → P (enliven i r st)
  reserved : ∀ i r st, P st → st.slots[i].content = .free → Initial r → P (reserve i r st)
  wiped : ∀ st, P st → P (wiped st)
  unreserved : ∀ st, P st → P (unreserve st)

theorem listed_of_ne_spent {x : RecordState} (h : x ≠ .spent) : listed x = true := by
  simp [listed, h]

section Edits

variable {P : Store → Prop} (hP : KeptByEdits P)
include hP

theorem KeptByEdits.settle {st : Store} (h : P st) : P (settle st) := hP.frame st _ rfl rfl rfl h

theorem KeptByEdits.releaseCheck {st : Store} (h : P st) (k : Handle) : P (releaseCheck k st) :=
  releaseFrom_induction hP.released 384 k st h

theorem KeptByEdits.releaseCheckOf {st : Store} (h : P st) (o : Option Handle) : P (releaseCheckOf o st) :=
  releaseCheckOf_induction hP.released o st h

theorem KeptByEdits.stateSet {st : Store} {h : Handle} {r : TripRecord} {next : RecordState} (hs : P st)
    (hlive : liveAs st h = some r) (hstate : r.state ≠ .spent) (hnext : next = .held ∨ next = .armed) :
    P (setLive h.slot { r with state := next } st) := by
  have hne : next ≠ .spent := by rcases hnext with rfl | rfl <;> decide
  exact hP.touched h.slot r _ st hs ((liveAs_eq_some_iff st h r).1 hlive).2
    ⟨rfl, rfl, rfl, rfl, (listed_of_ne_spent hne).trans (listed_of_ne_spent hstate).symm⟩ rfl

/-- Every direct record request keeps the property, where an ADD-TRIP does. -/
theorem StoreEdit.keeps {f : Frame} {s : State} {st : Store} (h : StoreEdit f s st) (hs : P s.store)
    (hadd : ∀ i r, s.store.slots[i].content = .free → Initial r → successorLive s.store r.successor = .ok () →
      P (enliven i r (raiseOccupancy r.axis s.store))) : P st := by
  cases h with
  | added hread hsucc hslot => exact hadd _ _ (free_of_slotFor hslot).1 (initial_newRecord hread) hsucc
  | modified hlive hstate hsucc => exact hP.releaseCheckOf (hP.modified _ _ _ _ hs hlive hstate hsucc) _
  | retired hlive hpred => exact hP.releaseCheckOf (hP.retired _ _ _ hs hlive hpred) _
  | stateSet hlive hstate hnext => exact hP.stateSet hs hlive hstate hnext
  | @recordAcked h r named hlive =>
    have htouched := hP.touched h.slot r { r with pending := kindsWithout r.pending named } _ hs
      ((liveAs_eq_some_iff _ _ _).1 hlive).2 ⟨rfl, rfl, rfl, rfl, rfl⟩ rfl
    unfold ackRecordStore
    simp only
    split
    · exact hP.releaseCheck htouched h
    · exact htouched
  | axisAcked => exact hP.frame s.store _ rfl rfl rfl hs

theorem CommitEffect.keeps {st st' : Store} {op : StagedOp} {o : Option Handle} (h : CommitEffect st op st' o) (hs : P st)
    (hcommit : ∀ i r, st.slots[i].content = .reserved r → successorLive st r.successor = .ok () → P (enliven i r st)) :
    P st' := by
  cases h with
  | added hres hsucc => exact hcommit _ _ hres hsucc
  | modified hlive hstate hsucc => exact hP.modified _ _ _ _ hs hlive hstate hsucc
  | retired hlive hpred => exact hP.retired _ _ _ hs hlive hpred
  | stateSet _ hlive hstate hnext => exact hP.stateSet hs hlive hstate hnext

theorem KeptByEdits.releaseChecks {st : Store} (h : P st) (lowered : List Handle) :
    P (lowered.foldl (fun st h => Machine.releaseCheck h st) st) :=
  List.foldlRecOn _ _ h fun _ h' k _ => hP.releaseCheck h' k

end Edits

section Firings

variable {P : Store → Prop} (hP : KeptByFirings P)
include hP

theorem KeptByFirings.afterSuccessor {st : Store} {i : SlotNo} {r : TripRecord} (d : Travel) (hs : P st)
    (hr : liveAt st i = some r) (ha : r.state = .armed) : P (afterSuccessor d i r st) := by
  have hcounted := hP.counted i r d st hs hr ha
  unfold Machine.afterSuccessor
  obtain h | ⟨k, x, -, hx, hd, h⟩ := armSuccessor_cases r.successor (setLive i (Machine.counted d r) st) <;> rw [h]
  · exact hcounted
  · exact hP.touched _ x _ _ hcounted ((liveAs_eq_some_iff _ _ _).1 hx).2 ⟨rfl, rfl, rfl, rfl, by rw [hd]; rfl⟩ rfl

theorem KeptByFirings.fired {st : Store} {i : SlotNo} {r : TripRecord} (sp : Span) (d : Travel) (parts : List Stretch)
    (hs : P st) (hr : liveAt st i = some r) (ha : r.state = .armed) : P (fireAtStore sp d parts i r st) := by
  have hafter := hP.afterSuccessor d hs hr ha
  have hlive : liveAt (Machine.afterSuccessor d i r st) i = some (Machine.counted d r) :=
    liveAt_armSuccessor (r := Machine.counted d r) (by simp) ha r.successor
  obtain h | ⟨q, h⟩ | h := fireAtStore_cases sp d parts i r st <;> rw [h]
  · exact hP.touched _ _ _ _ hafter hlive ⟨rfl, rfl, rfl, rfl, rfl⟩ rfl
  · refine hP.replaced _ _ _ _ hafter hlive ha ?_ ?_ ?_ ?_
    all_goals rw [rearmed_eq]
    · rfl
    · rfl
    · rfl
    · change (if _ then RecordState.held else r.state) ≠ _
      rw [ha]
      split <;> decide
  · unfold becomeSpent
    refine hP.releaseCheck (hP.spent i (Machine.counted d r) _ _ hafter hlive ha ?_ ?_ ?_ ?_) _ <;> rfl

theorem KeptByFirings.walk {gates : Vector Level 4} {n : AxisNo} {sp : Span} {p p' : Int} {st : Store} (hs : P st) :
    P (walkAtStore gates n sp p p' st) :=
  walkAtStore_induction hs fun d parts _ _ _ hst hr ha => hP.fired sp d parts hst hr ha

end Firings

section Moves

variable {P : Store → Prop} (hP : KeptByStore P)
include hP

theorem BatchEnd.keeps {s : State} {st : Store} (h : BatchEnd s st) (hs : P s.store) : P st := by
  cases h with
  | wiped => exact hP.wiped _ hs
  | unreserved => exact hP.unreserved _ hs
  | committed _ hpass =>
    exact hP.releaseChecks (commitEntries_induction (P := fun _ st _ => P st)
      (fun _ _ st _ _ _ h he => he.keeps hP.toKeptByEdits h fun i r => hP.committed i r st h) 0 _ _ _ hs hpass) _

/-- What every operation of the store keeps, every command keeps. -/
theorem StoreMove.keeps {s t : State} (h : StoreMove s t) (hs : P s.store) : P t.store := by
  cases h with
  | kept hst => exact hst ▸ hs
  | opened _ hst => exact hst ▸ hs
  | staged _ hst => exact hst ▸ hs
  | reset hst => exact hst ▸ hP.empty
  | noticed hst =>
    rw [hst]
    exact hP.settle (hP.frame s.store _ rfl rfl rfl hs)
  | updated _ hst =>
    rw [hst]
    exact hP.settle (hP.walk hs)
  | edited h hst =>
    rw [hst]
    exact hP.settle (h.keeps hP.toKeptByEdits hs fun i r => hP.added i r s.store hs)
  | stagedAdd hread hfree hst =>
    rw [hst]
    exact hP.reserved _ _ _ hs hfree (initial_newRecord hread)
  | closed h hst =>
    rw [hst]
    exact hP.settle (h.keeps hP hs)

/-- An invariant of the store that every operation keeps is kept by every step. -/
theorem KeptByStore.step {s t : State} (hs : P s.store) (hstep : step s = .next t) : P t.store := by
  obtain rfl | ⟨c, rest, he⟩ := step_cases hstep
  · exact hs
  · exact he.storeMove.keeps hP hs

end Moves

end Sys2Proof.Machine
end

section
/-! The occupancy counts (R8): every operation of the store that moves a slot into or out of use moves the count of its axis. -/

namespace Sys2Proof.Machine

/-! ### Counting slots -/

/-- The slots that have a property. -/
def slotCount (p : Slot → Bool) (st : Store) : Nat :=
  st.slots.toList.countP p

/-- Replacing one slot moves the number of slots with a property by that slot alone. -/
theorem countP_put {n : Nat} (p : Slot → Bool) (v : Vector Slot n) (i : Fin n) (sl : Slot) :
    (put v i sl).toList.countP p + (p v[i]).toNat = v.toList.countP p + (p sl).toNat := by
  have hi : i.val < v.toList.length := by simp
  have hget : v.toList[i.val] = v[i] := by simp
  have hpos : p v[i] = true → 0 < v.toList.countP p := fun h =>
    List.countP_pos_iff.2 ⟨_, by rw [← hget]; exact List.getElem_mem hi, h⟩
  rw [toList_put, List.countP_set hi, hget]
  generalize v.toList.countP p = k at hpos
  cases h : p v[i] with
  | false => cases p sl <;> simp
  | true =>
    have := hpos h
    cases p sl <;> simp <;> omega

theorem slotCount_put {st st' : Store} (p : Slot → Bool) {i : SlotNo} {sl : Slot} (h : st'.slots = put st.slots i sl) :
    slotCount p st' + (p st.slots[i]).toNat = slotCount p st + (p sl).toNat := by
  unfold slotCount
  rw [h, countP_put]

/-- A slot with the property, counted. -/
theorem slotCount_pos {st : Store} {p : Slot → Bool} {i : SlotNo} (h : p st.slots[i] = true) : 0 < slotCount p st :=
  List.countP_pos_iff.2 ⟨st.slots[i], by simp, h⟩

theorem slotCount_eq_zero_iff {st : Store} {p : Slot → Bool} : slotCount p st = 0 ↔ ∀ i : SlotNo, p st.slots[i] = false := by
  simp only [slotCount, List.countP_eq_zero, Vector.mem_toList_iff, Vector.mem_iff_getElem, Bool.not_eq_true]
  constructor
  · exact fun h i => h _ ⟨i.val, i.isLt, rfl⟩
  · rintro h _ ⟨k, hk, rfl⟩
    exact h ⟨k, hk⟩

theorem slotCount_eq_finRange (p : Slot → Bool) (st : Store) :
    slotCount p st = (List.finRange 384).countP fun i => p st.slots[i] := by
  have hslots : st.slots.toList = (List.finRange 384).map fun i => st.slots[i] := by
    apply List.ext_getElem <;> simp
  rw [slotCount, hslots, List.countP_map]
  rfl

/-- Slots that have the property in one store and in another are as many. -/
theorem slotCount_eq_of {st st' : Store} {p p' : Slot → Bool} (h : ∀ i : SlotNo, p' st'.slots[i] = p st.slots[i]) :
    slotCount p' st' = slotCount p st := by
  rw [slotCount_eq_finRange, slotCount_eq_finRange]
  exact List.countP_congr fun i _ => by rw [h i]

theorem slotCount_congr {st st' : Store} {p : Slot → Bool} (h : st'.slots = st.slots) : slotCount p st' = slotCount p st := by
  unfold slotCount
  rw [h]

/-! ### The records of an axis -/

/-- The slot holds a LIVE or RESERVED record of axis `n` (R8). -/
def ownedBy (n : AxisNo) (sl : Slot) : Bool :=
  match sl.content with
  | .free => false
  | .reserved r | .live r => decide (r.axis = n)

theorem countP_add_countP {α : Type} {p q r : α → Bool} (h : ∀ x, (p x).toNat + (q x).toNat = (r x).toNat) (l : List α) :
    l.countP p + l.countP q = l.countP r := by
  induction l with
  | nil => rfl
  | cons x l ih =>
    have hx := h x
    simp only [List.countP_cons]
    cases hp : p x <;> cases hq : q x <;> cases hr : r x <;> simp [hp, hq, hr] at hx ⊢ <;> omega

theorem liveCount_add_reservedCount (st : Store) (n : AxisNo) :
    liveCount st n + reservedCount st n = slotCount (ownedBy n) st := by
  refine countP_add_countP (fun sl => ?_) _
  rcases sl with ⟨g, _ | r | r⟩ <;> simp [ownedBy]

theorem occupancyCounts_iff (st : Store) :
    OccupancyCounts st ↔ ∀ n : AxisNo, st.occupancy[n] = slotCount (ownedBy n) st := by
  simp only [OccupancyCounts, liveCount_add_reservedCount]

theorem ownedBy_live (n : AxisNo) (g : Generation) (r : TripRecord) : ownedBy n ⟨g, .live r⟩ = decide (r.axis = n) := rfl

theorem ownedBy_reserved (n : AxisNo) (g : Generation) (r : TripRecord) :
    ownedBy n ⟨g, .reserved r⟩ = decide (r.axis = n) := rfl

theorem ownedBy_free (n : AxisNo) (g : Generation) : ownedBy n ⟨g, .free⟩ = false := rfl

theorem ownedBy_of_content {n : AxisNo} {sl : Slot} {r : TripRecord} (h : sl.content = .live r ∨ sl.content = .reserved r) :
    ownedBy n sl = decide (r.axis = n) := by
  unfold ownedBy
  rcases h with h | h <;> rw [h]

theorem ownedBy_of_free {n : AxisNo} {sl : Slot} (h : sl.content = .free) : ownedBy n sl = false := by
  unfold ownedBy
  rw [h]

/-! ### The counts under each operation -/

theorem occupancyCounts_of_same {st st' : Store} (hslots : st'.slots = st.slots) (hocc : st'.occupancy = st.occupancy)
    (h : OccupancyCounts st) : OccupancyCounts st' := by
  rw [occupancyCounts_iff] at h ⊢
  intro n
  rw [hocc, slotCount_congr hslots]
  exact h n

/-- A slot may change while its axis has it before and after. -/
theorem occupancyCounts_put {st st' : Store} {i : SlotNo} {sl : Slot} (hslots : st'.slots = put st.slots i sl)
    (hocc : st'.occupancy = st.occupancy) (howned : ∀ n, ownedBy n sl = ownedBy n st.slots[i]) (h : OccupancyCounts st) :
    OccupancyCounts st' := by
  rw [occupancyCounts_iff] at h ⊢
  intro n
  have hput := slotCount_put (ownedBy n) hslots
  rw [howned n] at hput
  rw [hocc, h n]
  omega

theorem occupancyCounts_setLive {st : Store} {i : SlotNo} {r r' : TripRecord} (hr : liveAt st i = some r)
    (haxis : r'.axis = r.axis) (h : OccupancyCounts st) : OccupancyCounts (setLive i r' st) := by
  refine occupancyCounts_put (setLive_slots i r' st) rfl (fun n => ?_) h
  rw [ownedBy_live, haxis, ownedBy_of_content (.inl ((liveAt_eq_some_iff st i r).1 hr))]

theorem occupancyCounts_link (o : Option Handle) {st : Store} (h : OccupancyCounts st) : OccupancyCounts (link o st) := by
  cases o with
  | none => exact h
  | some k =>
    cases hl : liveAs st k with
    | none => simpa only [link, raisePred_of_none hl] using h
    | some r =>
      simp only [link, raisePred_of_live hl]
      exact occupancyCounts_setLive ((liveAs_eq_some_iff st k r).1 hl).2 rfl h

theorem occupancyCounts_unlink (o : Option Handle) {st : Store} (h : OccupancyCounts st) : OccupancyCounts (unlink o st) := by
  cases o with
  | none => exact h
  | some k =>
    cases hl : liveAs st k with
    | none => simpa only [unlink, lowerPred_of_none hl] using h
    | some r =>
      simp only [unlink, lowerPred_of_live hl]
      exact occupancyCounts_setLive ((liveAs_eq_some_iff st k r).1 hl).2 rfl h

/-- A slot in use that becomes FREE lowers the count of its axis (R8). -/
theorem occupancyCounts_freed {st st' : Store} {i : SlotNo} {g : Generation} {r : TripRecord}
    (hr : st.slots[i].content = .live r ∨ st.slots[i].content = .reserved r) (hslots : st'.slots = put st.slots i ⟨g, .free⟩)
    (hocc : st'.occupancy = put st.occupancy r.axis (st.occupancy[r.axis] - 1)) (h : OccupancyCounts st) :
    OccupancyCounts st' := by
  rw [occupancyCounts_iff] at h ⊢
  intro n
  have hput := slotCount_put (ownedBy n) hslots
  rw [ownedBy_free, ownedBy_of_content hr] at hput
  rw [hocc]
  by_cases hn : n = r.axis
  · subst hn
    rw [getElem_put_self, h r.axis]
    simp only [decide_true, Bool.toNat_true, Bool.toNat_false] at hput
    omega
  · rw [getElem_put_ne _ _ _ _ hn, h n]
    simp only [decide_eq_false (Ne.symm hn), Bool.toNat_false] at hput
    omega

theorem occupancyCounts_freeSlot {st : Store} {i : SlotNo} {r : TripRecord} (hr : liveAt st i = some r)
    (h : OccupancyCounts st) : OccupancyCounts (freeSlot i st) := by
  rw [freeSlot_of_live hr]
  exact occupancyCounts_freed (.inl ((liveAt_eq_some_iff st i r).1 hr)) rfl rfl h

/-- A FREE slot that is taken for a record of an axis raises the axis's count (R8). -/
theorem occupancyCounts_taken {st st' : Store} {i : SlotNo} {c : SlotContent} {r : TripRecord}
    (hfree : st.slots[i].content = .free) (hc : c = .live r ∨ c = .reserved r)
    (hslots : st'.slots = put st.slots i ⟨st.slots[i].gen, c⟩)
    (hocc : st'.occupancy = put st.occupancy r.axis (st.occupancy[r.axis] + 1)) (h : OccupancyCounts st) :
    OccupancyCounts st' := by
  rw [occupancyCounts_iff] at h ⊢
  intro n
  have hput := slotCount_put (ownedBy n) hslots
  rw [ownedBy_of_free hfree, ownedBy_of_content (sl := ⟨st.slots[i].gen, c⟩) hc] at hput
  rw [hocc]
  by_cases hn : n = r.axis
  · subst hn
    rw [getElem_put_self, h r.axis]
    simp only [decide_true, Bool.toNat_true, Bool.toNat_false] at hput
    omega
  · rw [getElem_put_ne _ _ _ _ hn, h n]
    simp only [decide_eq_false (Ne.symm hn), Bool.toNat_false] at hput
    omega

theorem occupancyCounts_rePlace {st : Store} {i : SlotNo} {r r' : TripRecord} (hr : liveAt st i = some r)
    (haxis : r'.axis = r.axis) (h : OccupancyCounts st) : OccupancyCounts (rePlace i r' st) :=
  occupancyCounts_of_same (st := setLive i r' st) rfl rfl (occupancyCounts_setLive hr haxis h)

theorem occupancyCounts_wiped (st : Store) : OccupancyCounts (wiped st) := by
  rw [occupancyCounts_iff]
  intro n
  rw [slotCount_eq_zero_iff.2 fun i => ownedBy_of_free (by simp)]
  simp

/-- A slot after a discard or a failed commit (R188, R192). -/
theorem slots_unreserve (st : Store) (i : SlotNo) :
    (unreserve st).slots[i] =
      match st.slots[i].content with
      | .reserved _ => ⟨st.slots[i].gen + 1, .free⟩
      | .free | .live _ => st.slots[i] :=
  getElem_mapAll _ st.slots i.val i.isLt

theorem liveAt_unreserve (st : Store) (i : SlotNo) : liveAt (unreserve st) i = liveAt st i := by
  unfold liveAt
  rw [slots_unreserve]
  cases h : st.slots[i].content <;> simp only [h]

/-- The LIVE records of an axis are counted by the records alone. -/
theorem liveCount_congr {st st' : Store} (h : ∀ i, liveAt st' i = liveAt st i) (n : AxisNo) :
    liveCount st' n = liveCount st n := by
  refine slotCount_eq_of fun i => ?_
  have hi := h i
  unfold liveAt at hi
  revert hi
  generalize st'.slots[i].content = x
  generalize st.slots[i].content = y
  cases x <;> cases y <;> simp
  rintro rfl
  exact Iff.rfl

theorem reserved_unreserve (st : Store) (i : SlotNo) (r : TripRecord) : (unreserve st).slots[i].content ≠ .reserved r := by
  rw [slots_unreserve]
  cases h : st.slots[i].content <;> simp only [h] <;> simp

theorem occupancyCounts_unreserve {st : Store} (h : OccupancyCounts st) : OccupancyCounts (unreserve st) := by
  intro n
  have hlive : liveCount (unreserve st) n = liveCount st n := liveCount_congr (liveAt_unreserve st) n
  have hres : reservedCount (unreserve st) n = 0 := by
    have hzero := (slotCount_eq_zero_iff (st := unreserve st)
      (p := fun sl => match sl.content with
        | .reserved r => decide (r.axis = n)
        | .free | .live _ => false)).2 fun i => by
      cases hc : (unreserve st).slots[i].content with
      | reserved r => exact absurd hc (reserved_unreserve st i r)
      | free => rfl
      | live r => rfl
    exact hzero
  have hocc : (unreserve st).occupancy[n] = st.occupancy[n] - reservedCount st n := by simp [unreserve]
  have := h n
  omega

theorem occupancyCounts_modifyRecord {st : Store} {h : Handle} {r : TripRecord} (ch : Changes) (hr : liveAt st h.slot = some r)
    (hs : OccupancyCounts st) : OccupancyCounts (modifyRecord h r ch st) := by
  have hchange : OccupancyCounts (changeRecord h.slot r ch st) := by
    unfold changeRecord
    split
    · exact occupancyCounts_rePlace hr rfl hs
    · exact occupancyCounts_setLive hr rfl hs
  unfold modifyRecord moveLink
  split
  · exact hchange
  · exact occupancyCounts_unlink _ (occupancyCounts_link _ hchange)

/-- A retirement frees the slot, whether or not the record is listed. -/
theorem occupancyCounts_retireRecord {st : Store} {h : Handle} {r : TripRecord} (hr : liveAt st h.slot = some r)
    (hs : OccupancyCounts st) : OccupancyCounts (retireRecord h r st) := by
  unfold retireRecord
  refine occupancyCounts_unlink _ ?_
  split
  · exact occupancyCounts_freeSlot hr hs
  · exact occupancyCounts_freeSlot (st := unlist r.axis h.slot st) hr (occupancyCounts_of_same rfl rfl hs)

theorem occupancyCounts_empty : OccupancyCounts {} := by
  rw [occupancyCounts_iff]
  intro n
  rw [slotCount_eq_zero_iff.2 fun i => ownedBy_of_free (by simp)]
  simp

theorem occupancyCounts_kept : KeptByStore OccupancyCounts where
  frame _ _ hslots _ hocc h := occupancyCounts_of_same hslots hocc h
  touched _ _ _ _ h hr hbooks _ := occupancyCounts_setLive hr hbooks.axis h
  modified _ _ ch _ h hr _ _ := occupancyCounts_modifyRecord ch ((liveAs_eq_some_iff _ _ _).1 hr).2 h
  retired _ _ _ h hr _ := occupancyCounts_retireRecord ((liveAs_eq_some_iff _ _ _).1 hr).2 h
  released _ _ r h hr _ := occupancyCounts_unlink r.successor (occupancyCounts_freeSlot ((liveAs_eq_some_iff _ _ _).1 hr).2 h)
  counted _ _ _ _ h hr _ := occupancyCounts_setLive hr rfl h
  replaced _ _ _ _ h hr _ haxis _ _ _ := occupancyCounts_rePlace hr haxis h
  spent i _ r' st h hr _ haxis _ _ _ :=
    occupancyCounts_of_same (st := setLive i r' st) rfl rfl (occupancyCounts_setLive hr haxis h)
  empty := occupancyCounts_empty
  added i r st h hfree _ _ := by
    refine occupancyCounts_link r.successor ?_
    exact occupancyCounts_taken hfree (.inl rfl) rfl rfl h
  committed i r st h hres _ := by
    refine occupancyCounts_link r.successor ?_
    refine occupancyCounts_put (setLive_slots i r st) rfl (fun n => ?_) h
    rw [ownedBy_live, ownedBy_of_content (.inr hres)]
  reserved i r st h hfree _ := occupancyCounts_taken hfree (.inr rfl) rfl rfl h
  wiped st _ := occupancyCounts_wiped st
  unreserved _ h := occupancyCounts_unreserve h

/-- Settles O55: every operation of the store keeps the counts. -/
theorem stepKeepsOccupancyCounts : Obligations.StepKeepsOccupancyCounts :=
  fun _ _ hs hstep => occupancyCounts_kept.step hs hstep

end Sys2Proof.Machine
end

section
/-! The order lists (R28 to R33): placement, removal and re-placement, and that every operation of the store keeps the lists complete,
without repeats and sorted. -/

namespace Sys2Proof.Machine

/-! ### Placement (R30) -/

/-- Settles O15, by induction on the list: the walk along it stops at the first entry above the position, and every later one is above
it as well. -/
theorem placementIsTheNewestOfItsEquals : Obligations.PlacementIsTheNewestOfItsEquals := by
  intro pos i p l hl
  induction l with
  | nil => exact ⟨[], [], rfl, rfl, by simp, by simp⟩
  | cons j l ih =>
    obtain ⟨hj, hl⟩ := List.pairwise_cons.1 hl
    unfold placeIn
    split
    next hle =>
      obtain ⟨front, back, rfl, hplace, hfront, hback⟩ := ih hl
      refine ⟨j :: front, back, rfl, by rw [hplace]; rfl, fun a ha => ?_, hback⟩
      rcases List.mem_cons.1 ha with rfl | ha
      · exact hle
      · exact hfront a ha
    next hgt =>
      refine ⟨[], j :: l, rfl, rfl, by simp, fun b hb => ?_⟩
      rcases List.mem_cons.1 hb with rfl | hb
      · omega
      · have := hj b hb
        omega

theorem nodup_placeIn {pos : SlotNo → Int} {i : SlotNo} {p : Int} {l : List SlotNo} (hl : l.Nodup) (hi : i ∉ l) :
    (placeIn pos i p l).Nodup := by
  induction l with
  | nil => simp [placeIn]
  | cons j l ih =>
    obtain ⟨hj, hl⟩ := List.nodup_cons.1 hl
    rw [List.mem_cons, not_or] at hi
    unfold placeIn
    split
    · refine List.nodup_cons.2 ⟨?_, ih hl hi.2⟩
      rw [mem_placeIn, not_or]
      exact ⟨Ne.symm hi.1, hj⟩
    · exact List.nodup_cons.2 ⟨by rw [List.mem_cons, not_or]; exact hi, List.nodup_cons.2 ⟨hj, hl⟩⟩

/-- A record placed at its position keeps a sorted list sorted. -/
theorem pairwise_placeIn {pos : SlotNo → Int} {i : SlotNo} {l : List SlotNo} (hl : l.Pairwise fun a b => pos a ≤ pos b) :
    (placeIn pos i (pos i) l).Pairwise fun a b => pos a ≤ pos b := by
  obtain ⟨front, back, rfl, hplace, hfront, hback⟩ := placementIsTheNewestOfItsEquals pos i (pos i) l hl
  obtain ⟨hf, hb, hfb⟩ := List.pairwise_append.1 hl
  rw [hplace, List.pairwise_append, List.pairwise_cons]
  refine ⟨hf, ⟨fun b hb => Int.le_of_lt (hback b hb), hb⟩, fun a ha b hb => ?_⟩
  rcases List.mem_cons.1 hb with rfl | hb
  · exact hfront a ha
  · exact hfb a ha b hb

/-! ### Listed slots -/

theorem isListed_eq_true_iff (st : Store) (n : AxisNo) (i : SlotNo) :
    isListed st n i = true ↔ ∃ r, liveAt st i = some r ∧ r.axis = n ∧ r.state ≠ .spent := by
  unfold isListed
  cases liveAt st i <;> simp [listed]

theorem isListed_congr {st st' : Store} {n : AxisNo} {i : SlotNo} (h : liveAt st' i = liveAt st i) :
    isListed st' n i = isListed st n i := by
  unfold isListed
  rw [h]

theorem liveAt_congr {st st' : Store} {i : SlotNo} (h : st'.slots[i] = st.slots[i]) : liveAt st' i = liveAt st i := by
  unfold liveAt
  rw [h]

theorem positionOf_congr {st st' : Store} {i : SlotNo} (h : st'.slots[i] = st.slots[i]) : positionOf st' i = positionOf st i := by
  unfold positionOf
  rw [h]

theorem not_isListed_of_not_live {st : Store} {i : SlotNo} (h : liveAt st i = none) (n : AxisNo) : isListed st n i = false := by
  unfold isListed
  rw [h]

theorem liveAt_eq_none_of_content {st : Store} {i : SlotNo} (h : ∀ r, st.slots[i].content ≠ .live r) : liveAt st i = none := by
  rw [Option.eq_none_iff_forall_ne_some]
  exact fun r hr => h r ((liveAt_eq_some_iff st i r).1 hr)

theorem liveAt_eq_none_of_free {st : Store} {i : SlotNo} (h : st.slots[i].content = .free) : liveAt st i = none :=
  liveAt_eq_none_of_content fun r hr => by rw [h] at hr; cases hr

theorem liveAt_eq_none_of_reserved {st : Store} {i : SlotNo} {r : TripRecord} (h : st.slots[i].content = .reserved r) :
    liveAt st i = none :=
  liveAt_eq_none_of_content fun x hx => by rw [h] at hx; cases hx

/-- The list of axis `n` holds exactly the slots that `who` names, once each and sorted. -/
structure ListHolds (st : Store) (n : AxisNo) (who : SlotNo → Prop) : Prop where
  mem : ∀ i : SlotNo, i ∈ st.lists[n] ↔ who i
  nodup : st.lists[n].Nodup
  sorted : st.lists[n].Pairwise fun i j => positionOf st i ≤ positionOf st j

theorem listsOrdered_iff (st : Store) :
    ListsOrdered st ↔
      (∀ n, ListHolds st n fun i => isListed st n i = true) ∧
      ∀ (i : SlotNo) (r : TripRecord), st.slots[i].content = .reserved r → Initial r :=
  ⟨fun ⟨h, hr⟩ => ⟨fun n => ⟨(h n).1, (h n).2.1, (h n).2.2⟩, fun i r hc => ⟨(hr i r hc).1, (hr i r hc).2.1, (hr i r hc).2.2⟩⟩,
    fun ⟨h, hr⟩ => ⟨fun n => ⟨(h n).mem, (h n).nodup, (h n).sorted⟩,
      fun i r hc => ⟨(hr i r hc).state, (hr i r hc).predCount, (hr i r hc).pending⟩⟩⟩

theorem pairwise_position_congr {st st' : Store} {l : List SlotNo} (h : ∀ i ∈ l, positionOf st' i = positionOf st i)
    (hl : l.Pairwise fun i j => positionOf st i ≤ positionOf st j) :
    l.Pairwise fun i j => positionOf st' i ≤ positionOf st' j :=
  hl.imp_of_mem fun {i j} hi hj hle => by rw [h i hi, h j hj]; exact hle

/-- The lists are ordered where nothing that they rest on has changed. -/
theorem listsOrdered_of_same {st st' : Store} (hlists : st'.lists = st.lists)
    (hlisted : ∀ n i, isListed st' n i = isListed st n i)
    (hpos : ∀ n i, isListed st n i = true → positionOf st' i = positionOf st i)
    (hres : ∀ (i : SlotNo) (r : TripRecord), st'.slots[i].content = .reserved r → Initial r) (h : ListsOrdered st) :
    ListsOrdered st' := by
  obtain ⟨hl, -⟩ := (listsOrdered_iff st).1 h
  refine (listsOrdered_iff st').2 ⟨fun n => ⟨fun i => ?_, ?_, ?_⟩, hres⟩
  · rw [hlists, hlisted, (hl n).mem]
  · rw [hlists]; exact (hl n).nodup
  · rw [hlists]
    exact pairwise_position_congr (fun i hi => hpos n i (((hl n).mem i).1 hi)) (hl n).sorted

/-! ### The lists without one slot -/

/-- The lists are ordered, but for slot `i`, which stands in none, whatever it holds. -/
def OrderedBut (i : SlotNo) (st : Store) : Prop :=
  (∀ n, ListHolds st n fun j => j ≠ i ∧ isListed st n j = true) ∧
  ∀ (j : SlotNo) (r : TripRecord), j ≠ i → st.slots[j].content = .reserved r → Initial r

/-- What the slot itself holds does not matter. -/
theorem OrderedBut.of_same {st st' : Store} {i : SlotNo} (h : OrderedBut i st) (hlists : st'.lists = st.lists)
    (hslots : ∀ j, j ≠ i → st'.slots[j] = st.slots[j]) : OrderedBut i st' := by
  obtain ⟨hl, hr⟩ := h
  refine ⟨fun n => ⟨fun j => ?_, ?_, ?_⟩, fun j r hj hc => hr j r hj (by rw [← hslots j hj]; exact hc)⟩
  · rw [hlists, (hl n).mem]
    exact and_congr_right fun hj => by rw [isListed_congr (liveAt_congr (hslots j hj))]
  · rw [hlists]; exact (hl n).nodup
  · rw [hlists]
    exact pairwise_position_congr (fun j hj => positionOf_congr (hslots j (((hl n).mem j).1 hj).1)) (hl n).sorted

theorem OrderedBut.setSlot {st st' : Store} {i : SlotNo} {sl : Slot} (h : OrderedBut i st) (hlists : st'.lists = st.lists)
    (hslots : st'.slots = put st.slots i sl) : OrderedBut i st' :=
  h.of_same hlists fun j hj => by rw [hslots, getElem_put_ne _ _ _ _ hj]

/-- A removed record stands in no list (R33). -/
theorem orderedBut_unlist {st : Store} {i : SlotNo} {r : TripRecord} (hr : liveAt st i = some r) (h : ListsOrdered st) :
    OrderedBut i (unlist r.axis i st) := by
  obtain ⟨hl, hres⟩ := (listsOrdered_iff st).1 h
  refine ⟨fun n => ?_, fun j x _ hc => hres j x hc⟩
  by_cases hn : n = r.axis
  · subst hn
    have hlist : (unlist r.axis i st).lists[r.axis] = st.lists[r.axis].filter (· ≠ i) := by
      rw [unlist_lists, getElem_put_self]
    refine ⟨fun j => ?_, ?_, ?_⟩
    · rw [hlist, List.mem_filter, (hl r.axis).mem, decide_eq_true_eq, and_comm]
      rfl
    · rw [hlist]; exact (hl r.axis).nodup.filter _
    · rw [hlist]; exact (hl r.axis).sorted.filter _
  · have hlist : (unlist r.axis i st).lists[n] = st.lists[n] := by
      rw [unlist_lists, getElem_put_ne _ _ _ _ hn]
    refine ⟨fun j => ?_, by rw [hlist]; exact (hl n).nodup, by rw [hlist]; exact (hl n).sorted⟩
    rw [hlist, (hl n).mem]
    refine ⟨fun hj => ⟨?_, hj⟩, And.right⟩
    rintro rfl
    obtain ⟨x, hx, hax, -⟩ := (isListed_eq_true_iff st n j).1 hj
    rw [hr] at hx
    cases hx
    exact hn hax.symm

/-- A slot without a listed record stands in no list. -/
theorem orderedBut_of_not_listed {st : Store} {i : SlotNo} (hi : ∀ n, isListed st n i = false) (h : ListsOrdered st) :
    OrderedBut i st := by
  obtain ⟨hl, hres⟩ := (listsOrdered_iff st).1 h
  refine ⟨fun n => ⟨fun j => ?_, (hl n).nodup, (hl n).sorted⟩, fun j x _ hc => hres j x hc⟩
  rw [(hl n).mem]
  refine ⟨fun hj => ⟨?_, hj⟩, And.right⟩
  rintro rfl
  rw [hi n] at hj
  cases hj

theorem OrderedBut.listsOrdered {st : Store} {i : SlotNo} (h : OrderedBut i st) (hi : ∀ n, isListed st n i = false)
    (hres : ∀ r, st.slots[i].content = .reserved r → Initial r) : ListsOrdered st := by
  obtain ⟨hl, hr⟩ := h
  refine (listsOrdered_iff st).2 ⟨fun n => ⟨fun j => ?_, (hl n).nodup, (hl n).sorted⟩, fun j r hc => ?_⟩
  · rw [(hl n).mem]
    refine ⟨And.right, fun hj => ⟨?_, hj⟩⟩
    rintro rfl
    rw [hi n] at hj
    cases hj
  · by_cases hj : j = i
    · subst hj; exact hres r hc
    · exact hr j r hj hc

/-- A listed record that is placed at its position completes the lists (R30). -/
theorem OrderedBut.place {st : Store} {i : SlotNo} {r : TripRecord} (h : OrderedBut i st) (hr : liveAt st i = some r)
    (hstate : r.state ≠ .spent) : ListsOrdered (place r.axis i r.position st) := by
  obtain ⟨hl, hres⟩ := h
  have hpos : r.position = positionOf st i := (positionOf_of_liveAt hr).symm
  have hlisted : ∀ n, isListed st n i = true ↔ r.axis = n := by
    intro n
    rw [isListed_eq_true_iff]
    exact ⟨fun ⟨x, hx, hax, _⟩ => by rw [hr] at hx; cases hx; exact hax, fun hax => ⟨r, hr, hax, hstate⟩⟩
  refine (listsOrdered_iff _).2 ⟨fun n => ?_, fun j x hc => ?_⟩
  · by_cases hn : n = r.axis
    · subst hn
      have hlist : (Machine.place r.axis i r.position st).lists[r.axis]
          = placeIn (positionOf st) i (positionOf st i) st.lists[r.axis] := by
        rw [place_lists, getElem_put_self, hpos]
      refine ⟨fun j => ?_, ?_, ?_⟩
      · rw [hlist, mem_placeIn, (hl r.axis).mem]
        change _ ↔ isListed st r.axis j = true
        by_cases hj : j = i
        · subst hj; simp [(hlisted r.axis).2 rfl]
        · simp [hj]
      · rw [hlist]
        exact nodup_placeIn (hl r.axis).nodup fun hi => (((hl r.axis).mem i).1 hi).1 rfl
      · rw [hlist]
        exact pairwise_placeIn (hl r.axis).sorted
    · have hlist : (Machine.place r.axis i r.position st).lists[n] = st.lists[n] := by
        rw [place_lists, getElem_put_ne _ _ _ _ hn]
      refine ⟨fun j => ?_, by rw [hlist]; exact (hl n).nodup, by rw [hlist]; exact (hl n).sorted⟩
      rw [hlist, (hl n).mem]
      change _ ↔ isListed st n j = true
      refine ⟨And.right, fun hj => ⟨?_, hj⟩⟩
      rintro rfl
      exact hn ((hlisted n).1 hj).symm
  · refine hres j x ?_ hc
    rintro rfl
    rw [liveAt_eq_some_iff] at hr
    rw [place_slots, hr] at hc
    cases hc

/-! ### The lists under each operation -/

/-- A record may change in all but its place and whether it is listed. -/
theorem listsOrdered_setLive {st : Store} {i : SlotNo} {r r' : TripRecord} (hr : liveAt st i = some r)
    (haxis : r'.axis = r.axis) (hpos : r'.position = r.position) (hlisted : listed r'.state = listed r.state)
    (h : ListsOrdered st) : ListsOrdered (setLive i r' st) := by
  refine listsOrdered_of_same (st := st) rfl (fun n j => ?_) (fun _ j _ => congrFun (positionOf_setLive_same hr hpos) j)
    (fun j x hc => ?_) h
  · by_cases hj : i = j
    · subst hj
      simp only [isListed, liveAt_setLive, if_true, hr, haxis, hlisted]
    · exact isListed_congr (by rw [liveAt_setLive, if_neg hj])
  · refine ((listsOrdered_iff st).1 h).2 j x ?_
    by_cases hj : j = i
    · subst hj; rw [setLive_slots, getElem_put_self] at hc; cases hc
    · rw [setLive_slots, getElem_put_ne _ _ _ _ hj] at hc; exact hc

theorem listsOrdered_link (o : Option Handle) {st : Store} (h : ListsOrdered st) : ListsOrdered (link o st) := by
  cases o with
  | none => exact h
  | some k =>
    cases hl : liveAs st k with
    | none => simpa only [link, raisePred_of_none hl] using h
    | some r =>
      simp only [link, raisePred_of_live hl]
      exact listsOrdered_setLive ((liveAs_eq_some_iff st k r).1 hl).2 rfl rfl rfl h

theorem listsOrdered_unlink (o : Option Handle) {st : Store} (h : ListsOrdered st) : ListsOrdered (unlink o st) := by
  cases o with
  | none => exact h
  | some k =>
    cases hl : liveAs st k with
    | none => simpa only [unlink, lowerPred_of_none hl] using h
    | some r =>
      simp only [unlink, lowerPred_of_live hl]
      exact listsOrdered_setLive ((liveAs_eq_some_iff st k r).1 hl).2 rfl rfl rfl h

theorem slots_freeSlot {st : Store} {i : SlotNo} {r : TripRecord} (hr : liveAt st i = some r) :
    (freeSlot i st).slots = put st.slots i ⟨st.slots[i].gen + 1, .free⟩ := by
  rw [freeSlot_of_live hr]

theorem content_freeSlot {st : Store} {i : SlotNo} {r : TripRecord} (hr : liveAt st i = some r) :
    (freeSlot i st).slots[i].content = .free := by
  rw [slots_freeSlot hr, getElem_put_self]

theorem lists_freeSlot {st : Store} {i : SlotNo} {r : TripRecord} (hr : liveAt st i = some r) :
    (freeSlot i st).lists = st.lists := by
  rw [freeSlot_of_live hr]

/-- A freed slot needs no list. -/
theorem OrderedBut.freeSlot {st : Store} {i : SlotNo} {r : TripRecord} (hr : liveAt st i = some r) (h : OrderedBut i st) :
    ListsOrdered (freeSlot i st) :=
  (h.setSlot (lists_freeSlot hr) (slots_freeSlot hr)).listsOrdered
    (not_isListed_of_not_live (liveAt_eq_none_of_free (content_freeSlot hr)))
    fun x hc => by rw [content_freeSlot hr] at hc; cases hc

theorem not_isListed_of_spent {st : Store} {i : SlotNo} {r : TripRecord} (hr : liveAt st i = some r) (hs : r.state = .spent)
    (n : AxisNo) : isListed st n i = false := by
  rw [← Bool.not_eq_true, isListed_eq_true_iff]
  rintro ⟨x, hx, -, hne⟩
  rw [hr] at hx
  cases hx
  exact hne hs

theorem listsOrdered_rePlace {st : Store} {i : SlotNo} {r r' : TripRecord} (hr : liveAt st i = some r)
    (haxis : r'.axis = r.axis) (hstate : r'.state ≠ .spent) (h : ListsOrdered st) : ListsOrdered (rePlace i r' st) := by
  have hbut : OrderedBut i (setLive i r' (unlist r'.axis i st)) := by
    rw [haxis]
    exact (orderedBut_unlist hr h).setSlot rfl rfl
  exact hbut.place (by simp) hstate

theorem listsOrdered_modifyRecord {st : Store} {h : Handle} {r : TripRecord} (ch : Changes) (hr : liveAt st h.slot = some r)
    (hstate : r.state ≠ .spent) (hs : ListsOrdered st) : ListsOrdered (modifyRecord h r ch st) := by
  have hchange : ListsOrdered (changeRecord h.slot r ch st) := by
    unfold changeRecord
    split
    · exact listsOrdered_rePlace hr rfl hstate hs
    next hnone =>
      refine listsOrdered_setLive hr rfl ?_ rfl hs
      rw [Option.not_isSome_iff_eq_none] at hnone
      simp [changed, hnone]
  unfold modifyRecord moveLink
  split
  · exact hchange
  · exact listsOrdered_unlink _ (listsOrdered_link _ hchange)

theorem listsOrdered_retireRecord {st : Store} {h : Handle} {r : TripRecord} (hr : liveAt st h.slot = some r)
    (hs : ListsOrdered st) : ListsOrdered (retireRecord h r st) := by
  unfold retireRecord
  refine listsOrdered_unlink _ ?_
  split
  next hspent => exact (orderedBut_of_not_listed (not_isListed_of_spent hr hspent) hs).freeSlot hr
  next => exact (orderedBut_unlist hr hs).freeSlot (st := unlist r.axis h.slot st) hr

/-- A record that becomes LIVE in a slot that held none is placed (R14, R30). -/
theorem listsOrdered_enliven {st : Store} {i : SlotNo} {r : TripRecord} (hi : liveAt st i = none) (hr : r.state ≠ .spent)
    (hs : ListsOrdered st) : ListsOrdered (enliven i r st) := by
  refine listsOrdered_link _ ?_
  exact ((orderedBut_of_not_listed (not_isListed_of_not_live hi) hs).setSlot (st' := setLive i r st) rfl rfl).place (by simp) hr

theorem content_reserve {st : Store} {i : SlotNo} {r : TripRecord} : (reserve i r st).slots[i].content = .reserved r := by
  change (put st.slots i { st.slots[i] with content := .reserved r })[i].content = _
  rw [getElem_put_self]

theorem listsOrdered_reserve {st : Store} {i : SlotNo} {r : TripRecord} (hfree : st.slots[i].content = .free) (hr : Initial r)
    (hs : ListsOrdered st) : ListsOrdered (reserve i r st) := by
  have hbut : OrderedBut i (reserve i r st) :=
    (orderedBut_of_not_listed (not_isListed_of_not_live (liveAt_eq_none_of_free hfree)) hs).setSlot rfl rfl
  refine hbut.listsOrdered (not_isListed_of_not_live (liveAt_eq_none_of_reserved content_reserve)) fun x hx => ?_
  rw [content_reserve] at hx
  cases hx
  exact hr

theorem listsOrdered_empty_lists {st : Store} (hlists : st.lists = Vector.replicate 8 [])
    (hslots : ∀ i : SlotNo, st.slots[i].content = .free) : ListsOrdered st := by
  refine (listsOrdered_iff st).2 ⟨fun n => ⟨fun i => ?_, ?_, ?_⟩, fun i r hc => ?_⟩
  · simp [hlists, not_isListed_of_not_live (liveAt_eq_none_of_free (hslots i))]
  · simp [hlists]
  · simp [hlists]
  · rw [hslots i] at hc; cases hc

theorem listsOrdered_unreserve {st : Store} (h : ListsOrdered st) : ListsOrdered (unreserve st) := by
  refine listsOrdered_of_same (st := st) rfl (fun n i => isListed_congr (liveAt_unreserve st i)) (fun n i hi => ?_)
    (fun i r hc => absurd hc (reserved_unreserve st i r)) h
  obtain ⟨r, hr, -⟩ := (isListed_eq_true_iff st n i).1 hi
  rw [positionOf_of_liveAt hr, positionOf_of_liveAt ((liveAt_unreserve st i).trans hr)]

theorem listsOrdered_kept : KeptByStore ListsOrdered where
  frame st st' hslots hlists _ h := by
    have hlive : ∀ i, liveAt st' i = liveAt st i := fun i => liveAt_congr (by rw [hslots])
    exact listsOrdered_of_same hlists (fun n i => isListed_congr (hlive i)) (fun _ i _ => positionOf_congr (by rw [hslots]))
      (fun i r hc => ((listsOrdered_iff st).1 h).2 i r (by rw [← hslots]; exact hc)) h
  touched _ _ _ _ h hr hbooks _ := listsOrdered_setLive hr hbooks.axis hbooks.position hbooks.listed h
  modified _ _ ch _ h hr hstate _ := listsOrdered_modifyRecord ch ((liveAs_eq_some_iff _ _ _).1 hr).2 hstate h
  retired _ _ _ h hr _ := listsOrdered_retireRecord ((liveAs_eq_some_iff _ _ _).1 hr).2 h
  released st k r h hr hrel := by
    have hlive := ((liveAs_eq_some_iff _ _ _).1 hr).2
    have hspent := ((releasable_iff r).1 hrel).1
    exact listsOrdered_unlink r.successor
      ((orderedBut_of_not_listed (not_isListed_of_spent hlive hspent) h).freeSlot hlive)
  counted _ _ _ _ h hr _ := listsOrdered_setLive hr rfl rfl rfl h
  replaced _ _ _ _ h hr _ haxis _ _ hstate := listsOrdered_rePlace hr haxis hstate h
  spent i r r' st h hr _ _ _ _ hspent := by
    refine ((orderedBut_unlist hr h).setSlot (st' := setLive i r' (unlist r.axis i st)) rfl rfl).listsOrdered
      (not_isListed_of_spent (r := r') (by simp) hspent) fun x hc => ?_
    rw [setLive_slots, getElem_put_self] at hc
    cases hc
  empty := listsOrdered_empty_lists rfl (by simp)
  added i r st h hfree hr _ :=
    listsOrdered_enliven (st := raiseOccupancy r.axis st) (liveAt_eq_none_of_free hfree) hr.not_spent
      (listsOrdered_of_same rfl (fun _ _ => rfl) (fun _ _ _ => rfl) ((listsOrdered_iff st).1 h).2 h)
  committed i r st h hres _ :=
    listsOrdered_enliven (liveAt_eq_none_of_reserved hres) (((listsOrdered_iff st).1 h).2 i r hres).not_spent h
  reserved _ _ _ h hfree hr := listsOrdered_reserve hfree hr h
  wiped _ _ := listsOrdered_empty_lists rfl (by simp)
  unreserved _ h := listsOrdered_unreserve h

/-- Settles O57: every operation of the store keeps the lists ordered. -/
theorem stepKeepsListsOrdered : Obligations.StepKeepsListsOrdered :=
  fun _ _ hs hstep => listsOrdered_kept.step hs hstep

end Sys2Proof.Machine
end

section
/-! The successor links (R5, R18): between the parts of an operation a link may be made before it is counted, or gone while it is still
counted; at its end every predecessor count is true again. -/

namespace Sys2Proof.Machine

/-! ### Counting the links to a record -/

/-- The slot holds a LIVE record whose successor is `h`. -/
def names (h : Handle) (sl : Slot) : Bool :=
  match sl.content with
  | .live r => decide (r.successor = some h)
  | .free | .reserved _ => false

theorem predecessors_eq_slotCount (st : Store) (h : Handle) : predecessors st h = slotCount (names h) st := by
  unfold predecessors slotCount
  refine List.countP_congr fun sl _ => ?_
  rcases sl with ⟨g, _ | r | r⟩ <;> simp [names]

theorem names_live (h : Handle) (g : Generation) (r : TripRecord) :
    names h ⟨g, .live r⟩ = decide (r.successor = some h) := rfl

theorem names_of_liveAt {st : Store} {i : SlotNo} {r : TripRecord} (hr : liveAt st i = some r) (h : Handle) :
    names h st.slots[i] = decide (r.successor = some h) := by
  rw [liveAt_eq_some_iff] at hr
  unfold names
  rw [hr]

theorem names_of_not_live {st : Store} {i : SlotNo} (hi : liveAt st i = none) (h : Handle) : names h st.slots[i] = false := by
  unfold names
  split
  next r hr => rw [(liveAt_eq_some_iff st i r).2 hr] at hi; cases hi
  all_goals rfl

/-- 1 where the optional handle is `h`, and 0 elsewhere. -/
def one (o : Option Handle) (h : Handle) : Nat :=
  if o = some h then 1 else 0

@[simp] theorem one_none (h : Handle) : one none h = 0 := rfl

theorem one_of_ne {o : Option Handle} {h : Handle} (hne : o ≠ some h) : one o h = 0 := if_neg hne

theorem one_self (h : Handle) : one (some h) h = 1 := if_pos rfl

theorem toNat_decide_eq_one (o : Option Handle) (h : Handle) : (decide (o = some h)).toNat = one o h := by
  unfold one
  split
  next e => simp [e]
  next e => simp [e]

/-- A LIVE record that is replaced takes its link along. -/
theorem slotCount_names_setLive {st : Store} {i : SlotNo} {r : TripRecord} (hr : liveAt st i = some r) (r' : TripRecord)
    (h : Handle) : slotCount (names h) (setLive i r' st) + one r.successor h = slotCount (names h) st + one r'.successor h := by
  have hput := slotCount_put (names h) (setLive_slots i r' st)
  rwa [names_of_liveAt hr, names_live, toNat_decide_eq_one, toNat_decide_eq_one] at hput

/-- A slot that becomes LIVE brings its link. -/
theorem slotCount_names_enlivened {st : Store} {i : SlotNo} (hi : liveAt st i = none) (r : TripRecord) (h : Handle) :
    slotCount (names h) (setLive i r st) = slotCount (names h) st + one r.successor h := by
  have hput := slotCount_put (names h) (setLive_slots i r st)
  rwa [names_of_not_live hi, names_live, toNat_decide_eq_one, Bool.toNat_false, Nat.add_zero] at hput

/-- A slot that is freed takes its link away. -/
theorem slotCount_names_freed {st : Store} {i : SlotNo} {r : TripRecord} (hr : liveAt st i = some r) (h : Handle) :
    slotCount (names h) (freeSlot i st) + one r.successor h = slotCount (names h) st := by
  have hput := slotCount_put (names h) (slots_freeSlot hr)
  rw [names_of_liveAt hr, toNat_decide_eq_one] at hput
  exact hput

/-! ### Links that are not counted yet, or counted still -/

/-- Every predecessor count is true, but for a link to `new` that is made and not counted yet, and a link to `old` that is gone and
counted still; every successor is LIVE and another record. -/
structure Linked (new old : Option Handle) (st : Store) : Prop where
  count : ∀ i r, liveAt st i = some r →
    r.predCount + one new (handleOf st i) = slotCount (names (handleOf st i)) st + one old (handleOf st i)
  other : ∀ i r, liveAt st i = some r → r.successor ≠ some (handleOf st i)
  live : ∀ i r h, liveAt st i = some r → r.successor = some h → (liveAs st h).isSome = true

theorem linksCounted_iff (st : Store) : LinksCounted st ↔ Linked none none st := by
  constructor
  · intro h
    refine ⟨fun i r hr => ?_, fun i r hr => (h i r hr).2.1, fun i r k hr => (h i r hr).2.2 k⟩
    rw [(h i r hr).1, predecessors_eq_slotCount]
  · intro h i r hr
    refine ⟨?_, h.other i r hr, fun k => h.live i r k hr⟩
    have := h.count i r hr
    rw [predecessors_eq_slotCount]
    simpa using this

theorem handleOf_congr {st st' : Store} (h : st'.slots = st.slots) (i : SlotNo) : handleOf st' i = handleOf st i := by
  unfold handleOf
  rw [h]

theorem liveAs_congr {st st' : Store} (h : st'.slots = st.slots) (k : Handle) : liveAs st' k = liveAs st k := by
  unfold liveAs liveAt
  rw [h]

theorem slotCount_names_congr {st st' : Store} (h : ∀ i, liveAt st' i = liveAt st i) (k : Handle) :
    slotCount (names k) st' = slotCount (names k) st := by
  refine slotCount_eq_of fun i => ?_
  cases hl : liveAt st i with
  | none => rw [names_of_not_live hl, names_of_not_live ((h i).trans hl)]
  | some r => rw [names_of_liveAt hl, names_of_liveAt ((h i).trans hl)]

/-- The links rest on the LIVE records and their handles alone. -/
theorem Linked.of_live {new old : Option Handle} {st st' : Store} (hlive : ∀ i, liveAt st' i = liveAt st i)
    (hhandle : ∀ i r, liveAt st i = some r → handleOf st' i = handleOf st i) (h : Linked new old st) : Linked new old st' := by
  refine ⟨fun i r hr => ?_, fun i r hr => ?_, fun i r k hr hk => ?_⟩ <;> rw [hlive] at hr
  · rw [hhandle i r hr, slotCount_names_congr hlive]; exact h.count i r hr
  · rw [hhandle i r hr]; exact h.other i r hr
  · obtain ⟨x, hx⟩ := Option.isSome_iff_exists.1 (h.live i r k hr hk)
    have hx' := ((liveAs_eq_some_iff st k x).1 hx).2
    have hk' : handleOf st' k.slot = k := (hhandle _ x hx').trans (handleOf_slot_of_liveAs hx)
    rw [← hk', liveAs_handleOf, hlive, hx']
    rfl

theorem Linked.of_same {new old : Option Handle} {st st' : Store} (h : Linked new old st) (hslots : st'.slots = st.slots) :
    Linked new old st' :=
  h.of_live (fun _ => liveAt_congr (by rw [hslots])) fun i _ _ => handleOf_congr hslots i

/-- A handle of a LIVE record stays one while records are replaced and taken. -/
theorem liveAs_isSome_setLive {st : Store} {i : SlotNo} {r : TripRecord} {h : Handle} (hl : (liveAs st h).isSome = true) :
    (liveAs (setLive i r st) h).isSome = true := by
  obtain ⟨x, hx⟩ := Option.isSome_iff_exists.1 hl
  have hg := ((liveAs_eq_some_iff st h x).1 hx).1
  rw [liveAs_setLive]
  by_cases hi : i = h.slot
  · subst hi; rw [if_pos ⟨rfl, hg⟩]; rfl
  · simp [hi, hl]

section Replaced

variable {st : Store} {i : SlotNo} {r : TripRecord} (hr : liveAt st i = some r)
include hr

/-- A record whose link and count stay may change otherwise. -/
theorem Linked.setLive_same {new old : Option Handle} {r' : TripRecord} (h : Linked new old st)
    (hsucc : r'.successor = r.successor) (hpred : r'.predCount = r.predCount) : Linked new old (setLive i r' st) := by
  have hcount : ∀ k, slotCount (names k) (setLive i r' st) = slotCount (names k) st := by
    intro k
    have := slotCount_names_setLive hr r' k
    rw [hsucc] at this
    omega
  have hrec : ∀ j x, liveAt (setLive i r' st) j = some x →
      ∃ y, liveAt st j = some y ∧ x.successor = y.successor ∧ x.predCount = y.predCount := by
    intro j x hx
    rw [liveAt_setLive] at hx
    split at hx
    next hj => cases hx; subst hj; exact ⟨r, hr, hsucc, hpred⟩
    next => exact ⟨x, hx, rfl, rfl⟩
  refine ⟨fun j x hx => ?_, fun j x hx => ?_, fun j x k hx hk => ?_⟩
  all_goals obtain ⟨y, hy, hs, hp⟩ := hrec j x hx
  · rw [handleOf_setLive, hcount, hp]; exact h.count j y hy
  · rw [handleOf_setLive, hs]; exact h.other j y hy
  · exact liveAs_isSome_setLive (h.live j y k hy (by rw [← hs]; exact hk))

/-- A record whose link moves: the new link is not counted yet, and the old one is counted still. -/
theorem Linked.setLive_moved {r' : TripRecord} (h : Linked none none st) (hpred : r'.predCount = r.predCount)
    (hother : r'.successor ≠ some (handleOf st i))
    (hlive : ∀ k, r'.successor = some k → (liveAs st k).isSome = true) :
    Linked r'.successor r.successor (setLive i r' st) := by
  have hrec : ∀ j x, liveAt (setLive i r' st) j = some x →
      (j = i ∧ x = r') ∨ liveAt st j = some x := by
    intro j x hx
    rw [liveAt_setLive] at hx
    split at hx
    next hj => cases hx; exact .inl ⟨hj.symm, rfl⟩
    next => exact .inr hx
  refine ⟨fun j x hx => ?_, fun j x hx => ?_, fun j x k hx hk => ?_⟩
  · rw [handleOf_setLive]
    have hnames := slotCount_names_setLive hr r' (handleOf st j)
    obtain ⟨rfl, rfl⟩ | hx := hrec j x hx
    · have hc := h.count j r hr
      rw [one_none] at hc
      omega
    · have hc := h.count j x hx
      rw [one_none] at hc
      omega
  · rw [handleOf_setLive]
    obtain ⟨rfl, rfl⟩ | hx := hrec j x hx
    · exact hother
    · exact h.other j x hx
  · refine liveAs_isSome_setLive ?_
    obtain ⟨rfl, rfl⟩ | hx := hrec j x hx
    · exact hlive k hk
    · exact h.live j x k hx hk

/-- No record names one whose count is 0. -/
theorem Linked.not_named (h : Linked none none st) (hpred : r.predCount = 0) {j : SlotNo} {x : TripRecord}
    (hx : liveAt st j = some x) : x.successor ≠ some (handleOf st i) := by
  intro hs
  have hc := h.count i r hr
  rw [hpred, one_none] at hc
  have hpos : 0 < slotCount (names (handleOf st i)) st :=
    slotCount_pos (i := j) (by rw [names_of_liveAt hx, hs, decide_eq_true rfl])
  omega

theorem liveAt_freeSlot (j : SlotNo) : liveAt (freeSlot i st) j = if i = j then none else liveAt st j := by
  split
  next hj => subst hj; exact liveAt_eq_none_of_free (content_freeSlot hr)
  next hj => exact liveAt_congr (by rw [slots_freeSlot hr, getElem_put_ne _ _ _ _ (Ne.symm hj)])

theorem handleOf_freeSlot_of_ne {j : SlotNo} (hj : i ≠ j) : handleOf (freeSlot i st) j = handleOf st j := by
  unfold handleOf
  rw [slots_freeSlot hr, getElem_put_ne _ _ _ _ (Ne.symm hj)]

/-- A record that none names leaves its link behind, counted still. -/
theorem Linked.freed (h : Linked none none st) (hpred : r.predCount = 0) : Linked none r.successor (freeSlot i st) := by
  have hrec : ∀ j x, liveAt (freeSlot i st) j = some x → i ≠ j ∧ liveAt st j = some x := by
    intro j x hx
    rw [liveAt_freeSlot hr] at hx
    split at hx
    · cases hx
    next hj => exact ⟨hj, hx⟩
  refine ⟨fun j x hx => ?_, fun j x hx => ?_, fun j x k hx hk => ?_⟩
  all_goals obtain ⟨hj, hlive⟩ := hrec j x hx
  · rw [handleOf_freeSlot_of_ne hr hj]
    have hnames := slotCount_names_freed hr (handleOf st j)
    have hc := h.count j x hlive
    rw [one_none] at hc ⊢
    omega
  · rw [handleOf_freeSlot_of_ne hr hj]
    exact h.other j x hlive
  · obtain ⟨y, hy⟩ := Option.isSome_iff_exists.1 (h.live j x k hlive hk)
    have hne : i ≠ k.slot := by
      rintro rfl
      exact h.not_named hr hpred hlive (by rw [hk, handleOf_slot_of_liveAs hy])
    have hl : liveAs (freeSlot i st) k = liveAs st k := by
      unfold liveAs
      rw [liveAt_freeSlot hr, if_neg hne, slots_freeSlot hr, getElem_put_ne _ _ _ _ (Ne.symm hne)]
    rw [hl, hy]
    rfl

end Replaced

/-- The new record of a slot that held none names a LIVE record, and none names it; its link is not counted yet. -/
theorem Linked.enlivened {st : Store} {i : SlotNo} {r : TripRecord} (h : Linked none none st) (hi : liveAt st i = none)
    (hpred : r.predCount = 0) (hsucc : successorLive st r.successor = .ok ()) :
    Linked r.successor none (setLive i r st) := by
  rw [successorLive_eq_ok_iff] at hsucc
  have hdead : ∀ k, (liveAs st k).isSome = true → k ≠ handleOf st i := by
    rintro _ hk rfl
    rw [liveAs_handleOf, hi] at hk
    cases hk
  have hrec : ∀ j x, liveAt (setLive i r st) j = some x → (j = i ∧ x = r) ∨ liveAt st j = some x := by
    intro j x hx
    rw [liveAt_setLive] at hx
    split at hx
    next hj => cases hx; exact .inl ⟨hj.symm, rfl⟩
    next => exact .inr hx
  refine ⟨fun j x hx => ?_, fun j x hx => ?_, fun j x k hx hk => ?_⟩
  · rw [handleOf_setLive, slotCount_names_enlivened hi, one_none]
    obtain ⟨rfl, rfl⟩ | hx := hrec j x hx
    · have hzero : slotCount (names (handleOf st j)) st = 0 := by
        rw [slotCount_eq_zero_iff]
        intro l
        cases hl : liveAt st l with
        | none => exact names_of_not_live hl _
        | some y =>
          rw [names_of_liveAt hl, decide_eq_false_iff_not]
          exact fun hs => hdead _ (h.live l y _ hl hs) rfl
      omega
    · have hc := h.count j x hx
      rw [one_none] at hc
      omega
  · rw [handleOf_setLive]
    obtain ⟨rfl, rfl⟩ | hx := hrec j x hx
    · exact fun hs => hdead _ (hsucc _ hs) rfl
    · exact h.other j x hx
  · refine liveAs_isSome_setLive ?_
    obtain ⟨rfl, rfl⟩ | hx := hrec j x hx
    · exact hsucc k hk
    · exact h.live j x k hx hk

/-- A replaced record of the same link whose count moves makes the count of its handle true. -/
theorem Linked.recounted {new old new' old' : Option Handle} {st : Store} {k : Handle} {x x' : TripRecord}
    (h : Linked new old st) (hx : liveAs st k = some x) (hsucc : x'.successor = x.successor)
    (hself : x'.predCount + one new' k = slotCount (names k) st + one old' k)
    (hnew : ∀ l, l ≠ k → one new' l = one new l) (hold : ∀ l, l ≠ k → one old' l = one old l) :
    Linked new' old' (setLive k.slot x' st) := by
  have hlive := ((liveAs_eq_some_iff st k x).1 hx).2
  have hcount : ∀ l, slotCount (names l) (setLive k.slot x' st) = slotCount (names l) st := by
    intro l
    have := slotCount_names_setLive hlive x' l
    rw [hsucc] at this
    omega
  have hrec : ∀ j y, liveAt (setLive k.slot x' st) j = some y →
      (j = k.slot ∧ y = x') ∨ (j ≠ k.slot ∧ liveAt st j = some y) := by
    intro j y hy
    rw [liveAt_setLive] at hy
    split at hy
    next hj => cases hy; exact .inl ⟨hj.symm, rfl⟩
    next hj => exact .inr ⟨Ne.symm hj, hy⟩
  have hk := handleOf_slot_of_liveAs hx
  refine ⟨fun j y hy => ?_, fun j y hy => ?_, fun j y l hy hl => ?_⟩
  · rw [handleOf_setLive, hcount]
    obtain ⟨rfl, rfl⟩ | ⟨hj, hy⟩ := hrec j y hy
    · rw [hk]; exact hself
    · have hne : handleOf st j ≠ k := by rintro rfl; exact hj rfl
      rw [hnew _ hne, hold _ hne]
      exact h.count j y hy
  · rw [handleOf_setLive]
    obtain ⟨rfl, rfl⟩ | ⟨-, hy⟩ := hrec j y hy
    · rw [hsucc]; exact h.other _ x hlive
    · exact h.other j y hy
  · refine liveAs_isSome_setLive ?_
    obtain ⟨rfl, rfl⟩ | ⟨-, hy⟩ := hrec j y hy
    · exact h.live _ x l hlive (by rw [← hsucc]; exact hl)
    · exact h.live j y l hy hl

theorem one_some_of_ne {k l : Handle} (h : l ≠ k) : one (some k) l = 0 :=
  one_of_ne fun e => h (Option.some.inj e).symm

/-- A handle that names no LIVE record is the handle of none. -/
theorem handleOf_ne_of_liveAs_none {st : Store} {k : Handle} {j : SlotNo} {y : TripRecord} (hk : liveAs st k = none)
    (hy : liveAt st j = some y) : handleOf st j ≠ k := by
  rintro rfl
  rw [liveAs_handleOf, hy] at hk
  cases hk

/-- A link that is counted (R18). -/
theorem Linked.link {new old : Option Handle} {st : Store} (h : Linked new old st) : Linked none old (link new st) := by
  cases new with
  | none => exact h
  | some k =>
    cases hx : liveAs st k with
    | none =>
      have hst : Machine.link (some k) st = st := raisePred_of_none hx
      rw [hst]
      refine ⟨fun j y hy => ?_, h.other, h.live⟩
      have hc := h.count j y hy
      rwa [one_some_of_ne (handleOf_ne_of_liveAs_none hx hy)] at hc
    | some x =>
      have hst : Machine.link (some k) st = setLive k.slot { x with predCount := x.predCount + 1 } st := raisePred_of_live hx
      rw [hst]
      have hc := h.count k.slot x ((liveAs_eq_some_iff st k x).1 hx).2
      rw [handleOf_slot_of_liveAs hx, one_self] at hc
      exact h.recounted hx rfl hc (fun l hl => (one_some_of_ne hl).symm) fun _ _ => rfl

/-- A link that is no longer counted (R18). -/
theorem Linked.unlink {old : Option Handle} {st : Store} (h : Linked none old st) : Linked none none (unlink old st) := by
  cases old with
  | none => exact h
  | some k =>
    cases hx : liveAs st k with
    | none =>
      have hst : Machine.unlink (some k) st = st := lowerPred_of_none hx
      rw [hst]
      refine ⟨fun j y hy => ?_, h.other, h.live⟩
      have hc := h.count j y hy
      rwa [one_some_of_ne (handleOf_ne_of_liveAs_none hx hy)] at hc
    | some x =>
      have hst : Machine.unlink (some k) st = setLive k.slot { x with predCount := x.predCount - 1 } st := lowerPred_of_live hx
      rw [hst]
      have hc := h.count k.slot x ((liveAs_eq_some_iff st k x).1 hx).2
      rw [handleOf_slot_of_liveAs hx, one_self, one_none] at hc
      refine h.recounted hx rfl ?_ (fun _ _ => rfl) fun l hl => (one_some_of_ne hl).symm
      change x.predCount - 1 + 0 = slotCount (names k) st + 0
      omega

/-! ### The links under each operation -/

/-- The links are counted, and a RESERVED record, which none can name yet, waits with the count 0 (R5, R14). -/
def LinksKept (st : Store) : Prop :=
  Linked none none st ∧ ∀ (i : SlotNo) (r : TripRecord), st.slots[i].content = .reserved r → r.predCount = 0

/-- The slots that wait in reserve were waiting already. -/
def NoNewReserved (st st' : Store) : Prop :=
  ∀ (i : SlotNo) (r : TripRecord), st'.slots[i].content = .reserved r → st.slots[i].content = .reserved r

theorem NoNewReserved.trans {st st' st'' : Store} (h : NoNewReserved st st') (h' : NoNewReserved st' st'') :
    NoNewReserved st st'' := fun i r hc => h i r (h' i r hc)

theorem noNewReserved_put {st st' : Store} {i : SlotNo} {sl : Slot} (hslots : st'.slots = put st.slots i sl)
    (hsl : ∀ r, sl.content ≠ .reserved r) : NoNewReserved st st' := by
  intro j r hc
  rw [hslots] at hc
  by_cases hj : j = i
  · subst hj; rw [getElem_put_self] at hc; exact absurd hc (hsl r)
  · rwa [getElem_put_ne _ _ _ _ hj] at hc

theorem noNewReserved_of_same {st st' : Store} (hslots : st'.slots = st.slots) : NoNewReserved st st' :=
  fun i r hc => by rw [← hslots]; exact hc

theorem noNewReserved_setLive (i : SlotNo) (r : TripRecord) (st : Store) : NoNewReserved st (setLive i r st) :=
  noNewReserved_put (setLive_slots i r st) (by simp)

theorem noNewReserved_freeSlot {st : Store} {i : SlotNo} {r : TripRecord} (hr : liveAt st i = some r) :
    NoNewReserved st (freeSlot i st) :=
  noNewReserved_put (slots_freeSlot hr) (by simp)

theorem noNewReserved_link (o : Option Handle) (st : Store) : NoNewReserved st (link o st) := by
  cases o with
  | none => exact fun _ _ => id
  | some k =>
    cases hx : liveAs st k with
    | none => rw [link, raisePred_of_none hx]; exact fun _ _ => id
    | some x => rw [link, raisePred_of_live hx]; exact noNewReserved_setLive _ _ _

theorem noNewReserved_unlink (o : Option Handle) (st : Store) : NoNewReserved st (unlink o st) := by
  cases o with
  | none => exact fun _ _ => id
  | some k =>
    cases hx : liveAs st k with
    | none => rw [unlink, lowerPred_of_none hx]; exact fun _ _ => id
    | some x => rw [unlink, lowerPred_of_live hx]; exact noNewReserved_setLive _ _ _

theorem LinksKept.of {st st' : Store} (h : LinksKept st) (hl : Linked none none st') (hr : NoNewReserved st st') :
    LinksKept st' :=
  ⟨hl, fun i r hc => h.2 i r (hr i r hc)⟩

theorem slots_changeRecord (i : SlotNo) (r : TripRecord) (ch : Changes) (st : Store) :
    (changeRecord i r ch st).slots = (setLive i (changed r ch) st).slots := by
  unfold changeRecord
  split <;> rfl

/-- The successor of a changed record: the one SET, none, or the one it had. -/
theorem successor_changed (r : TripRecord) (ch : Changes) :
    (∃ k, setSuccessor ch.successor = some k ∧ (changed r ch).successor = some k) ∨
    (changed r ch).successor = none ∨ (changed r ch).successor = r.successor := by
  cases hc : ch.successor with
  | keep => exact .inr (.inr (by simp [changed, applyChange, hc]))
  | set k => exact .inl ⟨k, by simp [setSuccessor], by simp [changed, applyChange, hc]⟩
  | remove => exact .inr (.inl (by simp [changed, applyChange, hc]))

theorem linked_modifyRecord {st : Store} {h : Handle} {r : TripRecord} {ch : Changes} (hlive : liveAs st h = some r)
    (hcheck : checkSuccessor h ch st = .ok ()) (hs : Linked none none st) : Linked none none (modifyRecord h r ch st) := by
  have hr := ((liveAs_eq_some_iff st h r).1 hlive).2
  have hh := handleOf_slot_of_liveAs hlive
  have hcheck := checkSuccessor_eq_ok_iff.1 hcheck
  unfold modifyRecord moveLink
  split
  next heq => exact (hs.setLive_same hr heq.symm rfl).of_same (slots_changeRecord _ r ch st)
  next hne =>
    have hmoved : Linked (changed r ch).successor r.successor (changeRecord h.slot r ch st) := by
      refine (hs.setLive_moved hr (r' := changed r ch) rfl ?_ ?_).of_same (slots_changeRecord _ r ch st)
      · rw [hh]
        obtain ⟨k, hk, hsucc⟩ | hsucc | hsucc := successor_changed r ch
        · rw [hsucc]; exact fun e => (hcheck k hk).1 (Option.some.inj e)
        · rw [hsucc]; simp
        · exact absurd hsucc.symm hne
      · intro k hk
        obtain ⟨l, hl, hsucc⟩ | hsucc | hsucc := successor_changed r ch
        · rw [hsucc] at hk
          exact (hcheck k (hl.trans hk)).2
        · rw [hsucc] at hk; cases hk
        · exact absurd hsucc.symm hne
    exact hmoved.link.unlink

theorem noNewReserved_modifyRecord {st : Store} {h : Handle} {r : TripRecord} {ch : Changes} :
    NoNewReserved st (modifyRecord h r ch st) := by
  have hchange : NoNewReserved st (changeRecord h.slot r ch st) :=
    (noNewReserved_setLive h.slot (changed r ch) st).trans (noNewReserved_of_same (slots_changeRecord _ r ch st))
  unfold modifyRecord moveLink
  split
  · exact hchange
  · exact (hchange.trans (noNewReserved_link _ _)).trans (noNewReserved_unlink _ _)

theorem slots_freeSlot_unlist {st : Store} {i : SlotNo} {r : TripRecord} (hr : liveAt st i = some r) (n : AxisNo) :
    (freeSlot i (unlist n i st)).slots = (freeSlot i st).slots := by
  rw [slots_freeSlot (st := unlist n i st) hr, slots_freeSlot hr]
  rfl

/-- What a retirement leaves of the slots does not depend on the list. -/
theorem slots_retired {st : Store} {h : Handle} {r : TripRecord} (hr : liveAt st h.slot = some r) :
    (freeSlot h.slot (if r.state = .spent then st else unlist r.axis h.slot st)).slots = (freeSlot h.slot st).slots := by
  split
  · rfl
  · exact slots_freeSlot_unlist hr _

theorem liveAt_reserve {st : Store} {i : SlotNo} (hfree : st.slots[i].content = .free) (r : TripRecord) (j : SlotNo) :
    liveAt (reserve i r st) j = liveAt st j := by
  by_cases hj : j = i
  · subst hj
    rw [liveAt_eq_none_of_reserved content_reserve, liveAt_eq_none_of_free hfree]
  · refine liveAt_congr ?_
    change (put st.slots i _)[j] = _
    rw [getElem_put_ne _ _ _ _ hj]

theorem handleOf_unreserve {st : Store} {i : SlotNo} {r : TripRecord} (hr : liveAt st i = some r) :
    handleOf (unreserve st) i = handleOf st i := by
  unfold handleOf
  rw [slots_unreserve, (liveAt_eq_some_iff st i r).1 hr]

theorem linksKept_kept : KeptByStore LinksKept where
  frame _ _ hslots _ _ h := h.of (h.1.of_same hslots) (noNewReserved_of_same hslots)
  touched i r r' st h hr hbooks _ :=
    h.of (h.1.setLive_same hr hbooks.successor hbooks.predCount) (noNewReserved_setLive i r' st)
  modified _ _ _ _ h hr _ hcheck := h.of (linked_modifyRecord hr hcheck h.1) noNewReserved_modifyRecord
  retired k r st h hr hpred := by
    have hlive := ((liveAs_eq_some_iff _ _ _).1 hr).2
    refine h.of ((h.1.freed hlive hpred).of_same (slots_retired hlive)).unlink ?_
    exact ((noNewReserved_freeSlot hlive).trans (noNewReserved_of_same (slots_retired hlive))).trans (noNewReserved_unlink _ _)
  released st k r h hr hrel := by
    have hlive := ((liveAs_eq_some_iff _ _ _).1 hr).2
    exact h.of (h.1.freed hlive ((releasable_iff r).1 hrel).2.2.2).unlink
      ((noNewReserved_freeSlot hlive).trans (noNewReserved_unlink _ _))
  counted i r d st h hr _ := h.of (h.1.setLive_same hr rfl rfl) (noNewReserved_setLive i _ st)
  replaced i r r' st h hr _ _ hsucc hpred _ :=
    h.of ((h.1.setLive_same hr hsucc hpred).of_same (st' := rePlace i r' st) rfl) (noNewReserved_setLive i r' st)
  spent i r r' st h hr _ _ hsucc hpred _ :=
    h.of ((h.1.setLive_same hr hsucc hpred).of_same (st' := setLive i r' (unlist r.axis i st)) rfl)
      (noNewReserved_setLive i r' st)
  empty := by
    have hlive : ∀ i, liveAt ({} : Store) i = none := fun i => liveAt_eq_none_of_free (by simp)
    refine ⟨⟨fun i r hr => ?_, fun i r hr => ?_, fun i r k hr => ?_⟩, fun i r hc => by simp at hc⟩
    all_goals rw [hlive i] at hr; cases hr
  added i r st h hfree hr hsucc :=
    h.of
      ((h.1.of_same (st' := raiseOccupancy r.axis st) rfl).enlivened (liveAt_eq_none_of_free hfree) hr.predCount hsucc
        |>.of_same (st' := place r.axis i r.position (setLive i r (raiseOccupancy r.axis st))) rfl).link
      ((noNewReserved_setLive i r (raiseOccupancy r.axis st)).trans
        (noNewReserved_link _ (place r.axis i r.position (setLive i r (raiseOccupancy r.axis st)))))
  committed i r st h hres hsucc :=
    h.of
      ((h.1.enlivened (liveAt_eq_none_of_reserved hres) (h.2 i r hres) hsucc).of_same
        (st' := place r.axis i r.position (setLive i r st)) rfl).link
      ((noNewReserved_setLive i r st).trans (noNewReserved_link _ (place r.axis i r.position (setLive i r st))))
  reserved i r st h hfree hr := by
    refine ⟨h.1.of_live (fun j => liveAt_reserve hfree r j) fun j _ _ => handleOf_setContent i j (.reserved r) st,
      fun j x hc => ?_⟩
    by_cases hj : j = i
    · subst hj
      rw [content_reserve] at hc
      cases hc
      exact hr.predCount
    · change (put st.slots i _)[j].content = _ at hc
      rw [getElem_put_ne _ _ _ _ hj] at hc
      exact h.2 j x hc
  wiped st _ := by
    refine ⟨⟨fun i r hr => ?_, fun i r hr => ?_, fun i r k hr => ?_⟩, fun i r hc => by simp at hc⟩
    all_goals rw [liveAt_wiped] at hr; cases hr
  unreserved st h :=
    ⟨h.1.of_live (liveAt_unreserve st) fun _ _ hr => handleOf_unreserve hr, fun i r hc => absurd hc (reserved_unreserve st i r)⟩

/-- In a consistent batch every RESERVED record is one that ADD-TRIP made (R182). -/
theorem linksKept_of_batchConsistent {s : State} (hb : BatchConsistent s) (hl : LinksCounted s.store) : LinksKept s.store := by
  obtain ⟨-, -, hentry, hres⟩ := hb
  refine ⟨(linksCounted_iff _).1 hl, fun i r hc => ?_⟩
  obtain ⟨e, he, hh⟩ := List.mem_filterMap.1 (hres i r hc)
  obtain ⟨fields, hop⟩ : ∃ fields, e.op = .add fields (handleOf s.store i) := by
    unfold reservedHandle at hh
    split at hh
    next fields h hop => cases hh; exact ⟨fields, hop⟩
    all_goals cases hh
  have hslot := hentry e he fields _ hop
  have hcontent : s.store.slots[i].content = .reserved (newRecord fields) := congrArg Slot.content hslot
  rw [hc] at hcontent
  cases hcontent
  rfl

/-- Settles O58: every operation of the store keeps the links counted, with the RESERVED records waiting at count 0. -/
theorem stepKeepsLinksCounted : Obligations.StepKeepsLinksCounted :=
  fun _ _ hb hs hstep => (linksCounted_iff _).2 (linksKept_kept.step (linksKept_of_batchConsistent hb hs) hstep).1

end Sys2Proof.Machine
end

section
/-! The batch and the RESERVED slots (R178 to R192): the requests that need no batch leave every RESERVED slot as it is, and each of the
others keeps the slots and the staging list in step. -/

namespace Sys2Proof.Machine

/-! ### RESERVED slots -/

/-- The same slots are RESERVED, with the same generations and records. -/
def SameReserved (st st' : Store) : Prop :=
  ∀ (i : SlotNo) (g : Generation) (r : TripRecord), st'.slots[i] = ⟨g, .reserved r⟩ ↔ st.slots[i] = ⟨g, .reserved r⟩

theorem SameReserved.trans {st st' st'' : Store} (h : SameReserved st st') (h' : SameReserved st' st'') :
    SameReserved st st'' := fun i g r => (h' i g r).trans (h i g r)

theorem sameReserved_of_slots {st st' : Store} (h : st'.slots = st.slots) : SameReserved st st' :=
  fun i g r => by rw [h]

/-- A slot that is RESERVED neither before nor after may change. -/
theorem sameReserved_put {st st' : Store} {i : SlotNo} {sl : Slot} (hslots : st'.slots = put st.slots i sl)
    (hold : ∀ r, st.slots[i].content ≠ .reserved r) (hnew : ∀ r, sl.content ≠ .reserved r) : SameReserved st st' := by
  intro j g r
  rw [hslots]
  by_cases hj : j = i
  · subst hj
    rw [getElem_put_self]
    exact ⟨fun h => absurd (congrArg Slot.content h) (hnew r), fun h => absurd (congrArg Slot.content h) (hold r)⟩
  · rw [getElem_put_ne _ _ _ _ hj]

theorem sameReserved_setLive {st : Store} {i : SlotNo} (hold : ∀ r, st.slots[i].content ≠ .reserved r) (r' : TripRecord) :
    SameReserved st (setLive i r' st) :=
  sameReserved_put (setLive_slots i r' st) hold (by simp)

theorem not_reserved_of_liveAt {st : Store} {i : SlotNo} {r : TripRecord} (hr : liveAt st i = some r) (x : TripRecord) :
    st.slots[i].content ≠ .reserved x := by
  rw [(liveAt_eq_some_iff st i r).1 hr]
  simp

theorem not_reserved_of_free {st : Store} {i : SlotNo} (h : st.slots[i].content = .free) (x : TripRecord) :
    st.slots[i].content ≠ .reserved x := by
  rw [h]
  simp

theorem sameReserved_freeSlot {st : Store} {i : SlotNo} {r : TripRecord} (hr : liveAt st i = some r) :
    SameReserved st (freeSlot i st) :=
  sameReserved_put (slots_freeSlot hr) (not_reserved_of_liveAt hr) (by simp)

theorem sameReserved_link (o : Option Handle) (st : Store) : SameReserved st (link o st) := by
  cases o with
  | none => exact fun _ _ _ => Iff.rfl
  | some k =>
    cases hx : liveAs st k with
    | none => rw [link, raisePred_of_none hx]; exact fun _ _ _ => Iff.rfl
    | some x =>
      rw [link, raisePred_of_live hx]
      exact sameReserved_setLive (not_reserved_of_liveAt ((liveAs_eq_some_iff st k x).1 hx).2) _

theorem sameReserved_unlink (o : Option Handle) (st : Store) : SameReserved st (unlink o st) := by
  cases o with
  | none => exact fun _ _ _ => Iff.rfl
  | some k =>
    cases hx : liveAs st k with
    | none => rw [unlink, lowerPred_of_none hx]; exact fun _ _ _ => Iff.rfl
    | some x =>
      rw [unlink, lowerPred_of_live hx]
      exact sameReserved_setLive (not_reserved_of_liveAt ((liveAs_eq_some_iff st k x).1 hx).2) _

theorem sameReserved_modifyRecord {st : Store} {h : Handle} {r : TripRecord} (hr : liveAt st h.slot = some r) (ch : Changes) :
    SameReserved st (modifyRecord h r ch st) := by
  have hchange : SameReserved st (changeRecord h.slot r ch st) :=
    (sameReserved_setLive (not_reserved_of_liveAt hr) (changed r ch)).trans
      (sameReserved_of_slots (slots_changeRecord _ r ch st))
  unfold modifyRecord moveLink
  split
  · exact hchange
  · exact (hchange.trans (sameReserved_link _ _)).trans (sameReserved_unlink _ _)

theorem sameReserved_retireRecord {st : Store} {h : Handle} {r : TripRecord} (hr : liveAt st h.slot = some r) :
    SameReserved st (retireRecord h r st) :=
  ((sameReserved_freeSlot hr).trans (sameReserved_of_slots (slots_retired hr))).trans (sameReserved_unlink _ _)

/-- A record becomes LIVE in a FREE slot. -/
theorem sameReserved_enliven {st : Store} {i : SlotNo} (hfree : st.slots[i].content = .free) (r : TripRecord) :
    SameReserved st (enliven i r st) :=
  ((sameReserved_setLive (not_reserved_of_free hfree) r).trans (sameReserved_of_slots rfl)).trans (sameReserved_link _ _)

/-- Requests that need no batch, and firings, leave the RESERVED slots as they are. -/
theorem sameReserved_kept (st₀ : Store) : KeptByFirings (SameReserved st₀) where
  frame _ _ hslots _ _ h := h.trans (sameReserved_of_slots hslots)
  touched _ _ r' _ h hr _ _ := h.trans (sameReserved_setLive (not_reserved_of_liveAt hr) r')
  modified _ _ ch _ h hr _ _ := h.trans (sameReserved_modifyRecord ((liveAs_eq_some_iff _ _ _).1 hr).2 ch)
  retired _ _ _ h hr _ := h.trans (sameReserved_retireRecord ((liveAs_eq_some_iff _ _ _).1 hr).2)
  released _ _ r h hr _ :=
    h.trans ((sameReserved_freeSlot ((liveAs_eq_some_iff _ _ _).1 hr).2).trans (sameReserved_unlink r.successor _))
  counted _ _ _ _ h hr _ := h.trans (sameReserved_setLive (not_reserved_of_liveAt hr) _)
  replaced _ _ r' _ h hr _ _ _ _ _ := h.trans (sameReserved_setLive (not_reserved_of_liveAt hr) r')
  spent _ _ r' _ h hr _ _ _ _ _ := h.trans (sameReserved_setLive (not_reserved_of_liveAt hr) r')

/-- No slot is RESERVED. -/
def NoneReserved (st : Store) : Prop :=
  ∀ (i : SlotNo) (r : TripRecord), st.slots[i].content ≠ .reserved r

theorem slot_eq_of_content {sl : Slot} {c : SlotContent} (h : sl.content = c) : sl = ⟨sl.gen, c⟩ := by
  rw [← h]

theorem SameReserved.noneReserved {st st' : Store} (h : SameReserved st st') (hs : NoneReserved st) : NoneReserved st' :=
  fun i r hc => hs i r (congrArg Slot.content ((h i _ r).1 (slot_eq_of_content hc)))

/-! ### The staging list -/

/-- The RESERVED slots that wait belong to the entries that are still to come. -/
def ReservedAhead (entries : List StagedEntry) (st : Store) : Prop :=
  ∀ (i : SlotNo) (r : TripRecord), st.slots[i].content = .reserved r → handleOf st i ∈ entries.filterMap reservedHandle

theorem SameReserved.handleOf {st st' : Store} (h : SameReserved st st') {i : SlotNo} {r : TripRecord}
    (hc : st'.slots[i].content = .reserved r) : st.slots[i].content = .reserved r ∧ handleOf st' i = handleOf st i := by
  have hslot := (h i _ r).1 (slot_eq_of_content hc)
  refine ⟨congrArg Slot.content hslot, ?_⟩
  unfold Machine.handleOf
  rw [hslot]

theorem reservedHandle_eq_none {e : StagedEntry} (h : ∀ fields k, e.op ≠ .add fields k) : reservedHandle e = none := by
  unfold reservedHandle
  split
  next fields k hop => exact absurd hop (h fields k)
  all_goals rfl

/-- A committed entry leaves the RESERVED slots to the entries after it: a committed ADD's own becomes LIVE (R189). -/
theorem CommitEffect.reservedAhead {e : StagedEntry} {rest : List StagedEntry} {st st' : Store} {o : Option Handle}
    (h : CommitEffect st e.op st' o) (hs : ReservedAhead (e :: rest) st) : ReservedAhead rest st' := by
  have hother : ∀ {st'}, (∀ fields k, e.op ≠ .add fields k) → SameReserved st st' → ReservedAhead rest st' := by
    intro st' hop hsame i r hc
    obtain ⟨hc, hh⟩ := hsame.handleOf hc
    have hmem := hs i r hc
    rw [List.filterMap_cons, reservedHandle_eq_none hop] at hmem
    rw [hh]
    exact hmem
  generalize hop : e.op = op at h
  cases h with
  | @added fields h r hres hsucc =>
    intro i x hc
    have hsame : SameReserved (setLive h.slot r st) (enliven h.slot r st) :=
      (sameReserved_of_slots (st' := place r.axis h.slot r.position (setLive h.slot r st)) rfl).trans (sameReserved_link _ _)
    obtain ⟨hc, hh⟩ := hsame.handleOf hc
    have hne : i ≠ h.slot := by
      rintro rfl
      rw [setLive_slots, getElem_put_self] at hc
      cases hc
    rw [setLive_slots, getElem_put_ne _ _ _ _ hne] at hc
    have hmem := hs i x hc
    have hhandle : reservedHandle e = some h := by
      unfold reservedHandle
      rw [hop]
    rw [List.filterMap_cons, hhandle, List.mem_cons] at hmem
    rw [hh, handleOf_setLive]
    exact hmem.resolve_left fun e => hne (congrArg Handle.slot e)
  | modified hlive =>
    exact hother (by rw [hop]; simp) (sameReserved_modifyRecord ((liveAs_eq_some_iff _ _ _).1 hlive).2 _)
  | retired hlive =>
    exact hother (by rw [hop]; simp) (sameReserved_retireRecord ((liveAs_eq_some_iff _ _ _).1 hlive).2)
  | stateSet hadd hlive =>
    exact hother (by rw [hop]; exact hadd)
      (sameReserved_setLive (not_reserved_of_liveAt ((liveAs_eq_some_iff _ _ _).1 hlive).2) _)

/-- Whatever closes a batch leaves no slot RESERVED (R178). -/
theorem BatchEnd.noneReserved {s : State} {st : Store} (h : BatchEnd s st)
    (hs : ReservedAhead s.manager.staging s.store) : NoneReserved st := by
  cases h with
  | wiped => intro i r hc; simp at hc
  | unreserved => exact reserved_unreserve s.store
  | @committed st lowered _ hpass =>
    have hnone : ReservedAhead [] st :=
      commitEntries_induction (P := fun entries st _ => ReservedAhead entries st)
        (fun e rest st _ _ _ h he => he.reservedAhead h) 0 _ _ _ hs hpass
    exact ((sameReserved_kept st).releaseChecks (fun _ _ _ => Iff.rfl) lowered).noneReserved
      fun i r hc => by have hmem := hnone i r hc; simp at hmem

/-! ### The batch under each command -/

/-- The batch rests on its own fields and on the RESERVED slots. -/
theorem BatchConsistent.of_same {s t : State} (h : BatchConsistent s) (hbatch : SameBatch s t)
    (hstore : SameReserved s.store t.store) : BatchConsistent t := by
  obtain ⟨hclosed, hnodup, hentry, hres⟩ := h
  obtain ⟨hopen, hstaging⟩ := hbatch
  refine ⟨by rw [hopen, hstaging]; exact hclosed, by rw [hstaging]; exact hnodup, ?_, fun i r hc => ?_⟩
  · rw [hstaging]
    exact fun e he fields k hop => (hstore _ _ _).2 (hentry e he fields k hop)
  · obtain ⟨hc, hh⟩ := hstore.handleOf hc
    rw [hstaging, hh]
    exact hres i r hc

/-- With nothing staged no slot is RESERVED. -/
theorem batchConsistent_empty {t : State} (hstaging : t.manager.staging = []) (hnone : NoneReserved t.store) :
    BatchConsistent t := by
  refine ⟨fun _ => hstaging, by simp [hstaging], by simp [hstaging], fun i r hc => absurd hc (hnone i r)⟩

theorem BatchConsistent.staged {s t : State} {e : StagedEntry} (h : BatchConsistent s)
    (hop : ∀ fields k, e.op ≠ .add fields k) (hst : t.store = s.store) (hopen : t.manager.batchOpen = true)
    (hstaging : t.manager.staging = s.manager.staging ++ [e]) : BatchConsistent t := by
  obtain ⟨-, hnodup, hentry, hres⟩ := h
  have hhandles : t.manager.staging.filterMap reservedHandle = s.manager.staging.filterMap reservedHandle := by
    rw [hstaging, List.filterMap_append]
    simp [reservedHandle_eq_none hop]
  refine ⟨fun hc => (by rw [hopen] at hc; cases hc), by rw [hhandles]; exact hnodup, fun x hx fields k hk => ?_, ?_⟩
  · rw [hstaging, List.mem_append, List.mem_singleton] at hx
    rw [hst]
    obtain hx | rfl := hx
    · exact hentry x hx fields k hk
    · exact absurd hk (hop fields k)
  · rw [hhandles, hst]; exact hres

/-- The handles that the staged ADDs hold are those of RESERVED slots. -/
theorem BatchConsistent.reserved_of_mem {s : State} (h : BatchConsistent s) {k : Handle}
    (hk : k ∈ s.manager.staging.filterMap reservedHandle) : ∃ r, s.store.slots[k.slot] = ⟨k.gen, .reserved r⟩ := by
  obtain ⟨e, he, hh⟩ := List.mem_filterMap.1 hk
  unfold reservedHandle at hh
  split at hh
  next fields k' hop =>
    cases hh
    exact ⟨_, h.2.2.1 e he fields k hop⟩
  all_goals cases hh

theorem BatchConsistent.stagedAdd {s t : State} {fields : TripFields} {i : SlotNo} {tag : Byte} (h : BatchConsistent s)
    (hfree : s.store.slots[i].content = .free) (hst : t.store = reserve i (newRecord fields) s.store)
    (hopen : t.manager.batchOpen = true)
    (hstaging : t.manager.staging = s.manager.staging ++ [⟨.add fields (handleOf s.store i), tag⟩]) : BatchConsistent t := by
  have hmem : ∀ k, k ∈ s.manager.staging.filterMap reservedHandle → k.slot ≠ i := by
    rintro k hk rfl
    obtain ⟨r, hr⟩ := h.reserved_of_mem hk
    rw [hr] at hfree
    cases hfree
  obtain ⟨-, hnodup, hentry, hres⟩ := h
  have hhandles : t.manager.staging.filterMap reservedHandle =
      s.manager.staging.filterMap reservedHandle ++ [handleOf s.store i] := by
    rw [hstaging, List.filterMap_append]
    rfl
  have hslots : t.store.slots = put s.store.slots i ⟨s.store.slots[i].gen, .reserved (newRecord fields)⟩ := by
    rw [hst]
    rfl
  refine ⟨fun hc => (by rw [hopen] at hc; cases hc), ?_, fun x hx f k hk => ?_, fun j r hc => ?_⟩
  · rw [hhandles, List.nodup_append]
    refine ⟨hnodup, by simp, fun k hk k' hk' e => ?_⟩
    rw [List.mem_singleton] at hk'
    exact hmem k hk (by rw [e, hk']; rfl)
  · rw [hstaging, List.mem_append, List.mem_singleton] at hx
    rw [hslots]
    obtain hx | rfl := hx
    · have hslot := hentry x hx f k hk
      have hne : k.slot ≠ i := by
        rintro rfl
        rw [hslot] at hfree
        cases hfree
      rw [getElem_put_ne _ _ _ _ hne, hslot]
    · cases hk
      exact getElem_put_self ..
  · rw [hhandles, List.mem_append, List.mem_singleton]
    by_cases hj : j = i
    · subst hj
      right
      unfold handleOf
      rw [hslots, getElem_put_self]
    · rw [hslots, getElem_put_ne _ _ _ _ hj] at hc
      left
      have hh : handleOf t.store j = handleOf s.store j := by
        unfold handleOf
        rw [hslots, getElem_put_ne _ _ _ _ hj]
      rw [hh]
      exact hres j r hc

theorem StoreMove.batchConsistent {s t : State} (h : StoreMove s t) (hs : BatchConsistent s) : BatchConsistent t := by
  have hsame : SameReserved s.store s.store := fun _ _ _ => Iff.rfl
  have hkept := sameReserved_kept s.store
  cases h with
  | kept hst hb => exact hs.of_same hb (by rw [hst]; exact hsame)
  | reset hst _ hstaging => exact batchConsistent_empty hstaging fun i r hc => by rw [hst] at hc; simp at hc
  | noticed hst hb => exact hs.of_same hb (by rw [hst]; exact sameReserved_of_slots rfl)
  | updated _ hst hb => exact hs.of_same hb (by rw [hst]; exact hkept.settle (hkept.walk hsame))
  | edited h hst hb =>
    refine hs.of_same hb ?_
    rw [hst]
    exact hkept.settle (h.keeps hkept.toKeptByEdits hsame fun i r hfree _ _ =>
      SameReserved.trans (st' := raiseOccupancy r.axis s.store) (sameReserved_of_slots rfl)
        (sameReserved_enliven (st := raiseOccupancy r.axis s.store) hfree r))
  | opened hclosed hst hopen hstaging =>
    refine batchConsistent_empty hstaging fun i r hc => ?_
    rw [hst] at hc
    have hmem := hs.2.2.2 i r hc
    rw [hs.1 hclosed] at hmem
    cases hmem
  | staged hop hst _ _ hopen hstaging => exact hs.staged hop hst hopen hstaging
  | stagedAdd _ hfree hst _ _ hopen hstaging => exact hs.stagedAdd hfree hst hopen hstaging
  | closed h hst _ hstaging =>
    refine batchConsistent_empty hstaging ?_
    rw [hst]
    exact h.noneReserved hs.2.2.2

/-- Settles O59: each command leaves the batch and the RESERVED slots in step. -/
theorem stepKeepsBatchConsistent : Obligations.StepKeepsBatchConsistent := by
  intro s t hs hstep
  obtain rfl | ⟨c, rest, he⟩ := step_cases hstep
  · exact hs
  · exact he.storeMove.batchConsistent hs

end Sys2Proof.Machine
end

section
/-! Releases (R21, R22): a release check frees the record it names, and the chain behind it, at the first moment at which each meets the
conditions. -/

namespace Sys2Proof.Machine

/-! ### Records that could be released -/

/-- Only records of the handles in `l` meet the conditions of a release. -/
def ReleasableOnly (l : List Handle) (st : Store) : Prop :=
  ∀ (i : SlotNo) (r : TripRecord), liveAt st i = some r → releasable r = true → handleOf st i ∈ l

theorem noneReleasable_iff (st : Store) : NoneReleasable st ↔ ReleasableOnly [] st := by
  constructor
  · intro h i r hr hrel
    rw [h i r hr] at hrel
    cases hrel
  · intro h i r hr
    rw [← Bool.not_eq_true]
    exact fun hrel => by have := h i r hr hrel; simp at this

theorem ReleasableOnly.mono {l l' : List Handle} {st : Store} (h : ReleasableOnly l st) (hsub : ∀ k ∈ l, k ∈ l') :
    ReleasableOnly l' st := fun i r hr hrel => hsub _ (h i r hr hrel)

/-- Only the LIVE records and their handles matter. -/
theorem ReleasableOnly.of_live {l : List Handle} {st st' : Store} (h : ReleasableOnly l st)
    (hlive : ∀ i, liveAt st' i = liveAt st i) (hhandle : ∀ i r, liveAt st i = some r → handleOf st' i = handleOf st i) :
    ReleasableOnly l st' := by
  intro i r hr hrel
  rw [hlive] at hr
  rw [hhandle i r hr]
  exact h i r hr hrel

theorem ReleasableOnly.of_slots {l : List Handle} {st st' : Store} (h : ReleasableOnly l st) (hslots : st'.slots = st.slots) :
    ReleasableOnly l st' :=
  h.of_live (fun _ => liveAt_congr (by rw [hslots])) fun i _ _ => handleOf_congr hslots i

theorem ReleasableOnly.setLive {l : List Handle} {st : Store} {i : SlotNo} {r : TripRecord} (h : ReleasableOnly l st)
    (hr : releasable r = true → handleOf st i ∈ l) : ReleasableOnly l (setLive i r st) := by
  intro j x hx hrel
  rw [handleOf_setLive]
  rw [liveAt_setLive] at hx
  split at hx
  next hj => cases hx; subst hj; exact hr hrel
  next => exact h j x hx hrel

theorem not_releasable_of_state {r : TripRecord} (h : r.state ≠ .spent) : releasable r = false := by
  rw [← Bool.not_eq_true, releasable_iff]
  exact fun hrel => h hrel.1

theorem not_releasable_of_predCount {r : TripRecord} (h : r.predCount ≠ 0) : releasable r = false := by
  rw [← Bool.not_eq_true, releasable_iff]
  exact fun hrel => h hrel.2.2.2

/-- A record that is not SPENT does not meet the conditions. -/
theorem ReleasableOnly.setLive_not_spent {l : List Handle} {st : Store} {i : SlotNo} {r : TripRecord}
    (h : ReleasableOnly l st) (hr : r.state ≠ .spent) : ReleasableOnly l (Machine.setLive i r st) :=
  h.setLive fun hrel => by rw [not_releasable_of_state hr] at hrel; cases hrel

theorem ReleasableOnly.link {l : List Handle} {st : Store} (h : ReleasableOnly l st) (o : Option Handle) :
    ReleasableOnly l (link o st) := by
  cases o with
  | none => exact h
  | some k =>
    cases hx : liveAs st k with
    | none => rw [Machine.link, raisePred_of_none hx]; exact h
    | some x =>
      rw [Machine.link, raisePred_of_live hx]
      exact h.setLive fun hrel => by rw [not_releasable_of_predCount (by simp)] at hrel; cases hrel

/-- A lowered count may leave the record the conditions of a release. -/
theorem ReleasableOnly.unlink {l : List Handle} {st : Store} (h : ReleasableOnly l st) (o : Option Handle) :
    ReleasableOnly (o.toList ++ l) (unlink o st) := by
  cases o with
  | none => exact h
  | some k =>
    have h' : ReleasableOnly ((some k).toList ++ l) st := h.mono fun x hx => List.mem_append_right _ hx
    cases hx : liveAs st k with
    | none => rw [Machine.unlink, lowerPred_of_none hx]; exact h'
    | some x =>
      rw [Machine.unlink, lowerPred_of_live hx]
      exact h'.setLive fun _ => by rw [handleOf_slot_of_liveAs hx]; simp

/-- The freed record is no longer one that could be released. -/
theorem ReleasableOnly.freeSlot {l : List Handle} {st : Store} {i : SlotNo} {r : TripRecord} (hr : liveAt st i = some r)
    (h : ReleasableOnly (handleOf st i :: l) st) : ReleasableOnly l (freeSlot i st) := by
  intro j x hx hrel
  rw [liveAt_freeSlot hr] at hx
  split at hx
  · cases hx
  next hj =>
    rw [handleOf_freeSlot_of_ne hr hj]
    exact (List.mem_cons.1 (h j x hx hrel)).resolve_left fun e => hj (congrArg Handle.slot e).symm

/-! ### The chain -/

/-- The slot is LIVE. -/
def isLive (sl : Slot) : Bool :=
  match sl.content with
  | .live _ => true
  | .free | .reserved _ => false

theorem isLive_of_liveAt {st : Store} {i : SlotNo} {r : TripRecord} (hr : liveAt st i = some r) :
    isLive st.slots[i] = true := by
  rw [liveAt_eq_some_iff] at hr
  unfold isLive
  rw [hr]

theorem slotCount_isLive_setLive {st : Store} {i : SlotNo} {r : TripRecord} (hr : liveAt st i = some r) (r' : TripRecord) :
    slotCount isLive (setLive i r' st) = slotCount isLive st := by
  have hput := slotCount_put isLive (setLive_slots i r' st)
  rw [isLive_of_liveAt hr] at hput
  exact Nat.add_right_cancel hput

theorem slotCount_isLive_unlink (o : Option Handle) (st : Store) : slotCount isLive (unlink o st) = slotCount isLive st := by
  cases o with
  | none => rfl
  | some k =>
    cases hx : liveAs st k with
    | none => rw [unlink, lowerPred_of_none hx]
    | some x =>
      rw [unlink, lowerPred_of_live hx]
      exact slotCount_isLive_setLive ((liveAs_eq_some_iff st k x).1 hx).2 _

theorem slotCount_isLive_freeSlot {st : Store} {i : SlotNo} {r : TripRecord} (hr : liveAt st i = some r) :
    slotCount isLive (freeSlot i st) + 1 = slotCount isLive st := by
  have hput := slotCount_put isLive (slots_freeSlot hr)
  rw [isLive_of_liveAt hr] at hput
  exact hput

theorem slotCount_le (p : Slot → Bool) (st : Store) : slotCount p st ≤ 384 := by
  unfold slotCount
  exact (List.countP_le_length).trans (by simp)

/-- Each release frees a LIVE slot, so a chain as long as the LIVE slots is followed to its end (R22). -/
theorem releaseFrom_releasableOnly {l : List Handle} (fuel : Nat) (h : Handle) (st : Store)
    (hfuel : slotCount isLive st ≤ fuel) (hs : ReleasableOnly (h :: l) st) : ReleasableOnly l (releaseFrom fuel h st) := by
  induction fuel generalizing h st with
  | zero =>
    intro i r hr
    have := slotCount_pos (p := isLive) (isLive_of_liveAt hr)
    have hst : releaseFrom 0 h st = st := rfl
    rw [hst] at this
    omega
  | succ fuel ih =>
    have hkeep : (∀ r, liveAs st h = some r → releasable r = false) → ReleasableOnly l st := by
      intro hno i x hx hrel
      refine (List.mem_cons.1 (hs i x hx hrel)).resolve_left ?_
      rintro rfl
      rw [hno x (by rw [liveAs_handleOf]; exact hx)] at hrel
      cases hrel
    unfold releaseFrom
    split
    next hnone => exact hkeep fun r hr => by rw [hnone] at hr; cases hr
    next r hlive =>
      split
      next hrel =>
        have hr := ((liveAs_eq_some_iff st h r).1 hlive).2
        have hfreed : ReleasableOnly l (freeSlot h.slot st) :=
          ReleasableOnly.freeSlot hr (by rw [handleOf_slot_of_liveAs hlive]; exact hs)
        have hcount := slotCount_isLive_freeSlot hr
        split
        next => exact hfreed
        next k _ =>
          refine ih k _ ?_ (hfreed.unlink (some k))
          have := slotCount_isLive_unlink (some k) (freeSlot h.slot st)
          change slotCount isLive (unlink (some k) (freeSlot h.slot st)) ≤ fuel
          omega
      next hrel =>
        refine hkeep fun x hx => ?_
        rw [hlive] at hx
        cases hx
        simpa using hrel

theorem ReleasableOnly.releaseCheck {l : List Handle} {h : Handle} {st : Store} (hs : ReleasableOnly (h :: l) st) :
    ReleasableOnly l (releaseCheck h st) :=
  releaseFrom_releasableOnly 384 h st (slotCount_le _ _) hs

theorem ReleasableOnly.releaseCheckOf {l : List Handle} {o : Option Handle} {st : Store}
    (hs : ReleasableOnly (o.toList ++ l) st) : ReleasableOnly l (releaseCheckOf o st) := by
  cases o with
  | none => exact hs
  | some h => exact hs.releaseCheck

theorem ReleasableOnly.releaseChecks {lowered : List Handle} {st : Store} (hs : ReleasableOnly lowered st) :
    ReleasableOnly [] (lowered.foldl (fun st h => Machine.releaseCheck h st) st) := by
  induction lowered generalizing st with
  | nil => exact hs
  | cons h rest ih => exact ih hs.releaseCheck

/-! ### Releases under each operation -/

theorem ReleasableOnly.changeRecord {l : List Handle} {st : Store} {i : SlotNo} {r : TripRecord} (h : ReleasableOnly l st)
    (ch : Changes) (hr : r.state ≠ .spent) : ReleasableOnly l (changeRecord i r ch st) :=
  (h.setLive_not_spent (r := changed r ch) hr).of_slots (slots_changeRecord i r ch st)

/-- Only the former successor of a modified record can then meet the conditions (R162). -/
theorem ReleasableOnly.modifyRecord {l : List Handle} {st : Store} {h : Handle} {r : TripRecord} (hs : ReleasableOnly l st)
    (ch : Changes) (hr : r.state ≠ .spent) :
    ReleasableOnly ((formerSuccessor r ch).toList ++ l) (modifyRecord h r ch st) := by
  have hchange := hs.changeRecord (i := h.slot) ch hr
  unfold Machine.modifyRecord moveLink formerSuccessor
  split
  · exact hchange
  · exact (hchange.link _).unlink _

/-- Only the successor of a retired record can then meet the conditions (R165). -/
theorem ReleasableOnly.retireRecord {l : List Handle} {st : Store} {h : Handle} {r : TripRecord}
    (hr : liveAt st h.slot = some r) (hs : ReleasableOnly l st) :
    ReleasableOnly (r.successor.toList ++ l) (retireRecord h r st) := by
  have hfreed : ReleasableOnly l (Machine.freeSlot h.slot st) :=
    ReleasableOnly.freeSlot hr (hs.mono fun _ hk => List.mem_cons_of_mem _ hk)
  exact (hfreed.of_slots (slots_retired hr)).unlink _

theorem ReleasableOnly.enliven {l : List Handle} {st : Store} {i : SlotNo} {r : TripRecord} (hs : ReleasableOnly l st)
    (hr : r.state ≠ .spent) : ReleasableOnly l (enliven i r st) :=
  ((hs.setLive_not_spent (i := i) hr).of_slots (st' := place r.axis i r.position (Machine.setLive i r st)) rfl).link _

theorem ReleasableOnly.stateSet {l : List Handle} {st : Store} {i : SlotNo} {r : TripRecord} {next : RecordState}
    (hs : ReleasableOnly l st) (hnext : next = .held ∨ next = .armed) :
    ReleasableOnly l (Machine.setLive i { r with state := next } st) :=
  hs.setLive_not_spent (by rcases hnext with rfl | rfl <;> simp)

/-- An acknowledgement that clears the last pending kind makes the release check; one that clears none changes nothing that the
conditions rest on (R146). -/
theorem ReleasableOnly.ackRecordStore {st : Store} {h : Handle} {r : TripRecord} (hs : ReleasableOnly [] st)
    (hlive : liveAs st h = some r) (named : RecordKinds) : ReleasableOnly [] (ackRecordStore h r named st) := by
  have hh := handleOf_slot_of_liveAs hlive
  unfold Machine.ackRecordStore
  simp only
  split
  next =>
    refine ReleasableOnly.releaseCheck ((hs.mono fun _ hk => by simp at hk).setLive fun _ => ?_)
    rw [hh]
    exact List.mem_singleton_self h
  next hno =>
    refine hs.setLive fun hrel => hs _ _ ((liveAs_eq_some_iff st h r).1 hlive).2 ?_
    obtain ⟨hspent, hend, hkinds, hcount⟩ := (releasable_iff _).1 hrel
    refine (releasable_iff r).2 ⟨hspent, hend, ?_, hcount⟩
    rw [Bool.and_eq_true, Bool.not_eq_true', not_and] at hno
    have hcommon : noKinds (commonKinds r.pending named) = true := by simpa using hno hkinds
    rw [noKinds_iff] at hcommon ⊢
    have hleft : kindsWithout r.pending named = ⟨false, false, false⟩ := (noKinds_iff _).1 hkinds
    rcases hp : r.pending with ⟨f, s, o⟩
    rw [hp] at hcommon hleft
    simp only [commonKinds, kindsWithout, RecordKinds.mk.injEq] at hcommon hleft ⊢
    cases f <;> cases s <;> cases o <;> simp_all

theorem StoreEdit.noneReleasable {f : Frame} {s : State} {st : Store} (h : StoreEdit f s st)
    (hs : ReleasableOnly [] s.store) : ReleasableOnly [] st := by
  cases h with
  | @added fields i hread =>
    exact (hs.of_slots (st' := raiseOccupancy fields.axis s.store) rfl).enliven (initial_newRecord hread).not_spent
  | modified _ hstate => exact (hs.modifyRecord _ hstate).releaseCheckOf
  | retired hlive => exact (hs.retireRecord ((liveAs_eq_some_iff _ _ _).1 hlive).2).releaseCheckOf
  | stateSet _ _ hnext => exact hs.stateSet hnext
  | recordAcked hlive => exact hs.ackRecordStore hlive _
  | axisAcked => exact hs.of_slots rfl

/-- A firing leaves its record ARMED or HELD, or SPENT and checked for release (R104, R107, R108). -/
theorem ReleasableOnly.fired {st : Store} {i : SlotNo} {r : TripRecord} (hs : ReleasableOnly [] st) (ha : r.state = .armed)
    (sp : Span) (d : Travel) (parts : List Stretch) : ReleasableOnly [] (fireAtStore sp d parts i r st) := by
  have hne : r.state ≠ .spent := by rw [ha]; decide
  have hcounted : ReleasableOnly [] (Machine.setLive i (counted d r) st) := hs.setLive_not_spent hne
  have hafter : ReleasableOnly [] (afterSuccessor d i r st) := by
    unfold afterSuccessor
    obtain h | ⟨k, x, -, -, -, h⟩ := armSuccessor_cases r.successor (Machine.setLive i (counted d r) st) <;> rw [h]
    · exact hcounted
    · exact hcounted.setLive_not_spent (by simp)
  obtain h | ⟨q, h⟩ | h := fireAtStore_cases sp d parts i r st <;> rw [h]
  · exact hafter.setLive_not_spent hne
  · refine (hafter.setLive_not_spent (i := i) (r := rearmed d parts q (countedDown d r)) ?_).of_slots rfl
    rw [rearmed_eq]
    change (if _ then RecordState.held else r.state) ≠ _
    rw [ha]
    split <;> decide
  · unfold becomeSpent
    refine ReleasableOnly.releaseCheck (ReleasableOnly.setLive ?_ fun _ => List.mem_singleton_self _)
    exact (hafter.mono fun _ hk => by simp at hk).of_slots rfl

theorem ReleasableOnly.walk {st : Store} (hs : ReleasableOnly [] st) (gates : Vector Level 4) (n : AxisNo) (sp : Span)
    (p p' : Int) : ReleasableOnly [] (walkAtStore gates n sp p p' st) :=
  walkAtStore_induction hs fun d parts _ _ _ hst _ ha => hst.fired ha sp d parts

/-- A committed entry leaves at most the record whose count it lowered to be checked for release (R189). -/
theorem CommitEffect.releasableOnly {op : StagedOp} {l : List Handle} {st st' : Store} {o : Option Handle}
    (h : CommitEffect st op st' o) (hlists : ListsOrdered st) (hs : ReleasableOnly l st) :
    ReleasableOnly (l ++ o.toList) st' := by
  have hcomm : ∀ (o : Option Handle), ReleasableOnly (o.toList ++ l) st' → ReleasableOnly (l ++ o.toList) st' :=
    fun o h => h.mono fun k hk => by rw [List.mem_append] at hk ⊢; exact hk.symm
  cases h with
  | @added fields h r hres =>
    rw [Option.toList_none, List.append_nil]
    exact hs.enliven (((listsOrdered_iff st).1 hlists).2 _ r hres).not_spent
  | modified _ hstate => exact hcomm _ (hs.modifyRecord _ hstate)
  | retired hlive => exact hcomm _ (hs.retireRecord ((liveAs_eq_some_iff _ _ _).1 hlive).2)
  | stateSet _ _ _ hnext =>
    rw [Option.toList_none, List.append_nil]
    exact hs.stateSet hnext

theorem BatchEnd.noneReleasable {s : State} {st : Store} (h : BatchEnd s st) (hlists : ListsOrdered s.store)
    (hs : ReleasableOnly [] s.store) : ReleasableOnly [] st := by
  cases h with
  | wiped => intro i r hr; rw [liveAt_wiped] at hr; cases hr
  | unreserved => exact hs.of_live (liveAt_unreserve _) fun _ _ hr => handleOf_unreserve hr
  | @committed st lowered _ hpass =>
    have hkept := listsOrdered_kept
    exact (commitEntries_induction (P := fun _ st lowered => ListsOrdered st ∧ ReleasableOnly lowered st)
      (fun e _ st _ _ _ h he =>
        ⟨he.keeps hkept.toKeptByEdits h.1 fun i r => hkept.committed i r st h.1, he.releasableOnly h.1 h.2⟩)
      0 _ _ _ ⟨hlists, hs⟩ hpass).2.releaseChecks

theorem StoreMove.noneReleasable {s t : State} (h : StoreMove s t) (hlists : ListsOrdered s.store)
    (hs : ReleasableOnly [] s.store) : ReleasableOnly [] t.store := by
  cases h with
  | kept hst => rw [hst]; exact hs
  | opened _ hst => rw [hst]; exact hs
  | staged _ hst => rw [hst]; exact hs
  | reset hst =>
    intro i r hr
    rw [hst, liveAt_eq_none_of_free (by simp)] at hr
    cases hr
  | noticed hst => rw [hst]; exact hs.of_slots rfl
  | updated _ hst => rw [hst]; exact (hs.walk _ _ _ _ _).of_slots rfl
  | edited h hst => rw [hst]; exact (h.noneReleasable hs).of_slots rfl
  | stagedAdd _ hfree hst =>
    rw [hst]
    exact hs.of_live (liveAt_reserve hfree _) fun j _ _ => handleOf_setContent _ j _ s.store
  | closed h hst => rw [hst]; exact (h.noneReleasable hlists hs).of_slots rfl

/-- Settles O60: where an operation leaves a record the conditions of a release, the command checks it. -/
theorem stepKeepsNoneReleasable : Obligations.StepKeepsNoneReleasable := by
  intro s t hlists hs hstep
  obtain rfl | ⟨c, rest, he⟩ := step_cases hstep
  · exact hs
  · exact (noneReleasable_iff _).2 (he.storeMove.noneReleasable hlists ((noneReleasable_iff _).1 hs))

end Sys2Proof.Machine
end

section
/-! The trace of one record through a command: its slot, its generation and its fire count (O45). -/

namespace Sys2Proof.Machine

/-! ### A slot that still holds its record, or has been freed -/

/-- The slot holds a record under generation `g` of which `Q` holds, or the record was freed. -/
def Traced (Q : TripRecord → Prop) (g : Generation) (sl : Slot) : Prop :=
  (∃ x, sl = ⟨g, .live x⟩ ∧ Q x) ∨ sl = ⟨g + 1, .free⟩

/-- What is said of a record says nothing of its predecessor count. -/
def IgnoresCount (Q : TripRecord → Prop) : Prop :=
  ∀ x n, Q x → Q { x with predCount := n }

section Trace

variable {Q : TripRecord → Prop} {g : Generation} {st : Store} {i : SlotNo}

theorem Traced.of_liveAs (h : Traced Q g st.slots[i]) {x : TripRecord} (hx : liveAs st ⟨i, g⟩ = some x) : Q x := by
  have hs : st.slots[i] = ⟨g, .live x⟩ := slot_of_liveAs hx
  rcases h with ⟨y, hy, hq⟩ | hy
  · rw [hs] at hy
    cases hy
    exact hq
  · rw [hs] at hy
    cases congrArg Slot.content hy

theorem Traced.of_liveAt (h : Traced Q g st.slots[i]) {x : TripRecord} (hx : liveAt st i = some x) :
    Q x ∧ st.slots[i].gen = g := by
  rw [liveAt_eq_some_iff] at hx
  rcases h with ⟨y, hy, hq⟩ | hy
  · rw [hy] at hx ⊢
    cases hx
    exact ⟨hq, rfl⟩
  · rw [hy] at hx
    cases hx

theorem traced_relinked (hQ : IgnoresCount Q) (old new : Option Handle) (h : Traced Q g st.slots[i]) :
    Traced Q g (relinked old new st i) := by
  unfold relinked
  rcases h with ⟨x, hx, hq⟩ | hx
  · simp only [hx]
    split_ifs
    · exact .inl ⟨x, rfl, hq⟩
    · exact .inl ⟨_, rfl, hQ x _ hq⟩
    · exact .inl ⟨_, rfl, hQ x _ hq⟩
    · exact .inl ⟨x, rfl, hq⟩
  · simp only [hx]
    exact .inr rfl

theorem Traced.link (hQ : IgnoresCount Q) (o : Option Handle) (h : Traced Q g st.slots[i]) :
    Traced Q g (link o st).slots[i] := by
  rw [slots_link]
  exact traced_relinked hQ none o h

theorem Traced.unlink (hQ : IgnoresCount Q) (o : Option Handle) (h : Traced Q g st.slots[i]) :
    Traced Q g (unlink o st).slots[i] := by
  rw [slots_unlink]
  exact traced_relinked hQ o none h

theorem Traced.setLive {Q' : TripRecord → Prop} {j : SlotNo} {x : TripRecord} (h : Traced Q g st.slots[i])
    (hmono : ∀ y, Q y → Q' y) (hx : liveAt st j = some x) {x' : TripRecord} (hq : j = i → Q x → Q' x') :
    Traced Q' g (setLive j x' st).slots[i] := by
  by_cases hj : i = j
  · subst hj
    obtain ⟨hqx, hg⟩ := h.of_liveAt hx
    rw [setLive_slots, getElem_put_self]
    exact .inl ⟨x', congrArg (Slot.mk · _) hg, hq rfl hqx⟩
  · rw [setLive_slots, getElem_put_ne _ _ _ _ hj]
    rcases h with ⟨y, hy, hqy⟩ | hy
    · exact .inl ⟨y, hy, hmono y hqy⟩
    · exact .inr hy

theorem Traced.freeSlot {j : SlotNo} {x : TripRecord} (h : Traced Q g st.slots[i]) (hx : liveAt st j = some x) :
    Traced Q g (freeSlot j st).slots[i] := by
  rw [freeSlot_of_live hx]
  by_cases hj : i = j
  · subst hj
    rw [getElem_put_self, (h.of_liveAt hx).2]
    exact .inr rfl
  · rw [getElem_put_ne _ _ _ _ hj]
    exact h

theorem Traced.releaseCheck (hQ : IgnoresCount Q) (h : Traced Q g st.slots[i]) (k : Handle) :
    Traced Q g (releaseCheck k st).slots[i] :=
  releaseFrom_induction (P := fun st => Traced Q g st.slots[i])
    (fun _ _ _ hst hlive _ => (hst.freeSlot ((liveAs_eq_some_iff _ _ _).1 hlive).2).unlink hQ _) 384 k st h

end Trace

/-! ### Requests fire nothing -/

/-- The fire count is `k`. -/
def CountIs (k : Nat) (x : TripRecord) : Prop :=
  x.fireCount = k

theorem countIs_ignoresCount (k : Nat) : IgnoresCount (CountIs k) := fun _ _ h => h

/-- A record request leaves the fire count of every record that it does not free. -/
theorem traced_keptByEdits (g : Generation) (k : Nat) (i : SlotNo) :
    KeptByEdits fun st => Traced (CountIs k) g st.slots[i] where
  frame st st' hslots _ _ h := by rw [hslots]; exact h
  touched j r r' st h hr _ hcount := h.setLive (fun _ hy => hy) hr fun _ hq => hcount.trans hq
  modified h r ch st hs hlive _ _ := by
    have hr := ((liveAs_eq_some_iff _ _ _).1 hlive).2
    have hchanged : Traced (CountIs k) g (changeRecord h.slot r ch st).slots[i] := by
      rw [slots_changeRecord]
      exact hs.setLive (fun _ hy => hy) hr fun _ hq => hq
    unfold modifyRecord moveLink
    split
    · exact hchanged
    · exact (hchanged.link (countIs_ignoresCount k) _).unlink (countIs_ignoresCount k) _
  retired h r st hs hlive _ := by
    have hr := ((liveAs_eq_some_iff _ _ _).1 hlive).2
    refine Traced.unlink (countIs_ignoresCount k) _ ?_
    rw [slots_retired hr]
    exact hs.freeSlot hr
  released st h r hs hlive _ :=
    (hs.freeSlot ((liveAs_eq_some_iff _ _ _).1 hlive).2).unlink (countIs_ignoresCount k) _

theorem traced_enliven {Q : TripRecord → Prop} {g : Generation} {st : Store} {i j : SlotNo} (hQ : IgnoresCount Q)
    (hj : i ≠ j) (h : Traced Q g st.slots[i]) (x : TripRecord) : Traced Q g (enliven j x st).slots[i] := by
  refine Traced.link hQ _ ?_
  rw [place_slots, setLive_slots, getElem_put_ne _ _ _ _ hj]
  exact h

theorem BatchEnd.traced {s : State} {st : Store} {i : SlotNo} {r : TripRecord} (h : BatchEnd s st)
    (hr : s.store.slots[i].content = .live r) :
    Traced (CountIs r.fireCount) s.store.slots[i].gen st.slots[i] := by
  have hslot := slot_eq_of_content hr
  have hstart : Traced (CountIs r.fireCount) s.store.slots[i].gen s.store.slots[i] := .inl ⟨r, hslot, rfl⟩
  cases h with
  | wiped =>
    refine .inr ?_
    rw [wiped_slots, Fin.getElem_fin, getElem_mapAll, ← Fin.getElem_fin, wipedSlot, hr]
  | unreserved =>
    refine .inl ⟨r, ?_, rfl⟩
    rw [slots_unreserve, hr]
    exact hslot
  | committed _ hpass =>
    have hkept := traced_keptByEdits s.store.slots[i].gen r.fireCount i
    refine hkept.releaseChecks (commitEntries_induction (P := fun _ st _ =>
      Traced (CountIs r.fireCount) s.store.slots[i].gen st.slots[i]) ?_ 0 _ _ _ hstart hpass) _
    intro e rest st lowered st' o hst he
    refine he.keeps hkept hst fun j x hres _ => traced_enliven (countIs_ignoresCount _) ?_ hst x
    rintro rfl
    rcases hst with ⟨y, hy, -⟩ | hy <;> rw [hy] at hres <;> cases hres

/-! ### One firing at most -/

/-- The record `x`, which was `r`, has not fired yet. -/
def NotFired (r x : TripRecord) : Prop :=
  x.fireCount = r.fireCount ∧ (x.state = .armed ∨ x.state = .dormant → r.state = .armed ∨ r.state = .dormant)

/-- What is said of a record stays true when it is armed as a successor. -/
def KeptByArming (Q : TripRecord → Prop) : Prop :=
  ∀ x, x.state = .dormant → Q x → Q { x with state := .armed }

theorem notFired_ignoresCount (r : TripRecord) : IgnoresCount (NotFired r) := fun _ _ h => h

theorem notFired_keptByArming (r : TripRecord) : KeptByArming (NotFired r) :=
  fun _ hd h => ⟨h.1, fun _ => h.2 (.inr hd)⟩

theorem countIs_keptByArming (k : Nat) : KeptByArming (CountIs k) := fun _ _ h => h

theorem slots_rePlace (i : SlotNo) (r : TripRecord) (st : Store) : (rePlace i r st).slots = (setLive i r st).slots := rfl

theorem slots_setLive_unlist (i : SlotNo) (r : TripRecord) (n : AxisNo) (st : Store) :
    (setLive i r (unlist n i st)).slots = (setLive i r st).slots := rfl

/-- The fired record after steps 2 to 4: it is ARMED still, so that its own arming of a successor leaves it. -/
theorem liveAt_afterSuccessor {i : SlotNo} {r : TripRecord} (ha : r.state = .armed) (d : Travel) (st : Store) :
    liveAt (afterSuccessor d i r st) i = some (counted d r) :=
  liveAt_armSuccessor (r := counted d r) (by simp) ha r.successor

section Walk

variable {Q : TripRecord → Prop} {g : Generation} {st : Store} {i : SlotNo}

theorem Traced.armSuccessor (hQ : KeptByArming Q) (h : Traced Q g st.slots[i]) (o : Option Handle) :
    Traced Q g (armSuccessor o st).slots[i] := by
  obtain he | ⟨k, x, -, hx, hd, he⟩ := armSuccessor_cases o st <;> rw [he]
  · exact h
  · exact h.setLive (fun _ hy => hy) ((liveAs_eq_some_iff _ _ _).1 hx).2 fun _ hq => hQ x hd hq

/-- Steps 5 to 7 of a firing act on the record as steps 2 to 4 left it. -/
theorem Traced.afterArming (hcount : IgnoresCount Q) {j : SlotNo} {x : TripRecord} (sp : Span) (d : Travel)
    (parts : List Stretch) (h : Traced Q g (afterSuccessor d j x st).slots[i])
    (hx : liveAt (afterSuccessor d j x st) j = some (counted d x))
    (hq : ∀ y, j = i → y.fireCount = (counted d x).fireCount → Q y) :
    Traced Q g (fireAtStore sp d parts j x st).slots[i] := by
  obtain he | ⟨q, he⟩ | he := fireAtStore_cases sp d parts j x st <;> rw [he]
  · exact h.setLive (fun _ hy => hy) hx fun hj _ => hq _ hj rfl
  · rw [slots_rePlace]
    refine h.setLive (fun _ hy => hy) hx fun hj _ => hq _ hj ?_
    rw [rearmed_eq]
    rfl
  · refine Traced.releaseCheck hcount ?_ _
    rw [slots_setLive_unlist]
    exact h.setLive (fun _ hy => hy) hx fun hj _ => hq _ hj rfl

/-- The firing of another record leaves the trace. -/
theorem Traced.fired_other (hcount : IgnoresCount Q) (harm : KeptByArming Q) {j : SlotNo} {x : TripRecord}
    (h : Traced Q g st.slots[i]) (hj : j ≠ i) (hx : liveAt st j = some x) (ha : x.state = .armed) (sp : Span) (d : Travel)
    (parts : List Stretch) : Traced Q g (fireAtStore sp d parts j x st).slots[i] := by
  refine Traced.afterArming hcount sp d parts ?_ (liveAt_afterSuccessor ha d st) fun _ he => absurd he hj
  exact (h.setLive (fun _ hy => hy) hx fun he => absurd he hj).armSuccessor harm _

/-- The record's own firing counts one. -/
theorem Traced.fired_self {r x : TripRecord} (h : Traced (NotFired r) g st.slots[i]) (hx : liveAt st i = some x)
    (ha : x.state = .armed) (sp : Span) (d : Travel) (parts : List Stretch) :
    Traced (CountIs (min (r.fireCount + 1) 65535)) g (fireAtStore sp d parts i x st).slots[i] := by
  obtain ⟨⟨hfc, -⟩, hg⟩ := h.of_liveAt hx
  have hcounted : (counted d x).fireCount = min (r.fireCount + 1) 65535 := by rw [← hfc]; rfl
  refine Traced.afterArming (countIs_ignoresCount _) sp d parts ?_ (liveAt_afterSuccessor ha d st)
    fun y _ hy => hy.trans hcounted
  refine Traced.armSuccessor (countIs_keptByArming _) (.inl ⟨counted d x, ?_, hcounted⟩) _
  rw [setLive_slots, getElem_put_self]
  exact congrArg (Slot.mk · _) hg

theorem Traced.met_other (hcount : IgnoresCount Q) (harm : KeptByArming Q) {j : SlotNo} (h : Traced Q g st.slots[i])
    (hj : j ≠ i) (gates : Vector Level 4) (sp : Span) (d : Travel) (parts : List Stretch) :
    Traced Q g (meetAtStore gates sp d parts st j).slots[i] := by
  unfold meetAtStore
  split
  next x hx =>
    split
    next hf => exact h.fired_other hcount harm hj hx ((fires_iff _ _ _).1 hf).1 sp d parts
    next => exact h
  next => exact h

theorem Traced.met_others (hcount : IgnoresCount Q) (harm : KeptByArming Q) {l : List SlotNo} (h : Traced Q g st.slots[i])
    (hl : i ∉ l) (gates : Vector Level 4) (sp : Span) (d : Travel) (parts : List Stretch) :
    Traced Q g (l.foldl (meetAtStore gates sp d parts) st).slots[i] :=
  List.foldlRecOn (motive := fun st : Store => Traced Q g st.slots[i]) _ _ h fun _ hst _ hj =>
    hst.met_other hcount harm (fun e => hl (by rwa [e] at hj)) gates sp d parts

/-- Over a met set without repeats a record fires at most once, and only where the set holds it. -/
theorem Traced.met_all {r : TripRecord} {l : List SlotNo} (h : Traced (NotFired r) g st.slots[i]) (hl : l.Nodup)
    (gates : Vector Level 4) (sp : Span) (d : Travel) (parts : List Stretch) :
    let st' := l.foldl (meetAtStore gates sp d parts) st
    Traced (NotFired r) g st'.slots[i] ∨
    (i ∈ l ∧ (r.state = .armed ∨ r.state = .dormant) ∧ Traced (CountIs (min (r.fireCount + 1) 65535)) g st'.slots[i]) := by
  induction l generalizing st with
  | nil => exact .inl h
  | cons j l ih =>
    obtain ⟨hjl, hl⟩ := List.nodup_cons.1 hl
    by_cases hj : j = i
    · subst hj
      rw [List.foldl_cons]
      have hpassed : meetAtStore gates sp d parts st j = st ∨
          ∃ x, liveAt st j = some x ∧ x.state = .armed ∧ meetAtStore gates sp d parts st j = fireAtStore sp d parts j x st := by
        unfold meetAtStore
        split
        next x hx =>
          split
          next hf => exact .inr ⟨x, hx, ((fires_iff _ _ _).1 hf).1, rfl⟩
          next => exact .inl rfl
        next => exact .inl rfl
      obtain he | ⟨x, hx, ha, he⟩ := hpassed <;> rw [he]
      · exact .inl (h.met_others (notFired_ignoresCount r) (notFired_keptByArming r) hjl gates sp d parts)
      · refine .inr ⟨List.mem_cons_self, (h.of_liveAt hx).1.2 (.inl ha), ?_⟩
        exact (h.fired_self hx ha sp d parts).met_others (countIs_ignoresCount _) (countIs_keptByArming _) hjl gates sp d parts
    · obtain hnot | ⟨hmem, hstate, hcount⟩ := ih
        (h.met_other (notFired_ignoresCount r) (notFired_keptByArming r) hj gates sp d parts) hl
      · exact .inl hnot
      · exact .inr ⟨List.mem_cons_of_mem _ hmem, hstate, hcount⟩

end Walk

/-! ### The met set -/

theorem mem_readOrder {d : Travel} {l : List SlotNo} {i : SlotNo} : i ∈ readOrder d l ↔ i ∈ l := by
  cases d <;> simp [readOrder]

theorem nodup_readOrder {d : Travel} {l : List SlotNo} (h : l.Nodup) : (readOrder d l).Nodup := by
  cases d
  · exact h
  · exact List.nodup_reverse.2 h

theorem mem_metSet {st : Store} {n : AxisNo} {d : Travel} {parts : List Stretch} {i : SlotNo} :
    i ∈ metSet st n d parts ↔ i ∈ st.lists[n] ∧ ∃ x ∈ parts, inStretch (positionOf st i) x = true := by
  simp only [metSet, List.mem_flatMap, List.mem_filter, mem_readOrder]
  constructor
  · rintro ⟨x, hx, hi, hp⟩; exact ⟨hi, x, hx, hp⟩
  · rintro ⟨hi, x, hx, hp⟩; exact ⟨x, hx, hi, hp⟩

/-- The parts of a crossed interval share no count. -/
theorem crossed_disjoint (sp : Span) (d : Travel) (p p' : Int) :
    (crossed sp d p p').Pairwise fun x y => ∀ q, inStretch q x = true → inStretch q y = false := by
  unfold crossed
  split
  · exact List.pairwise_singleton _ _
  · exact List.pairwise_singleton _ _
  · split
    · refine List.pairwise_pair.2 fun q hq => ?_
      rw [inStretch_iff] at hq
      rw [← Bool.not_eq_true, inStretch_iff]
      dsimp only at hq ⊢
      omega
    · exact List.pairwise_singleton _ _
  · split
    · refine List.pairwise_pair.2 fun q hq => ?_
      rw [inStretch_iff] at hq
      rw [← Bool.not_eq_true, inStretch_iff]
      dsimp only at hq ⊢
      omega
    · exact List.pairwise_singleton _ _

/-- A walk meets no record twice (R45). -/
theorem nodup_metSet {st : Store} {n : AxisNo} (h : st.lists[n].Nodup) (sp : Span) (d : Travel) (p p' : Int) :
    (metSet st n d (crossed sp d p p')).Nodup := by
  refine List.nodup_flatMap.2 ⟨fun x _ => (nodup_readOrder h).filter _, (crossed_disjoint sp d p p').imp fun hxy => ?_⟩
  intro i hi hi'
  rw [List.mem_filter] at hi hi'
  rw [hxy _ hi.2] at hi'
  exact Bool.false_ne_true hi'.2

/-! ### Every command -/

/-- What one command can do to the fire count of a record that is LIVE before it. -/
theorem StoreMove.fireCount {s t : State} {i : SlotNo} {r : TripRecord} (h : StoreMove s t) (hlists : ListsOrdered s.store)
    (hr : liveAt s.store i = some r) :
    Traced (CountIs r.fireCount) s.store.slots[i].gen t.store.slots[i] ∨ t.store.slots[i].content = .free ∨
    (s.axes[r.axis].state = .tracking ∧ (r.state = .armed ∨ r.state = .dormant) ∧
      Traced (CountIs (min (r.fireCount + 1) 65535)) s.store.slots[i].gen t.store.slots[i]) := by
  have hc := (liveAt_eq_some_iff _ _ _).1 hr
  have hslot := slot_eq_of_content hc
  have hstart : Traced (CountIs r.fireCount) s.store.slots[i].gen s.store.slots[i] := .inl ⟨r, hslot, rfl⟩
  have hkept := traced_keptByEdits s.store.slots[i].gen r.fireCount i
  have hne : ∀ j : SlotNo, s.store.slots[j].content = .free → i ≠ j := by
    rintro j hj rfl
    rw [hc] at hj
    cases hj
  cases h with
  | kept hst => rw [hst]; exact .inl hstart
  | opened _ hst => rw [hst]; exact .inl hstart
  | staged _ hst => rw [hst]; exact .inl hstart
  | noticed hst => rw [hst]; exact .inl hstart
  | reset hst => rw [hst]; exact .inr (.inl (by simp))
  | edited h hst =>
    rw [hst]
    exact .inl (h.keeps hkept hstart fun j x hfree _ _ =>
      traced_enliven (st := raiseOccupancy x.axis s.store) (countIs_ignoresCount _) (hne j hfree) hstart x)
  | stagedAdd _ hfree hst =>
    rw [hst]
    refine .inl ?_
    change Traced _ _ (setContent _ _ s.store).slots[i]
    rw [setContent_slots, getElem_put_ne _ _ _ _ (hne _ hfree)]
    exact hstart
  | closed h hst => rw [hst]; exact .inl (h.traced hc)
  | @updated n sp p p' hstate hst =>
    have hbefore : Traced (NotFired r) s.store.slots[i].gen s.store.slots[i] := .inl ⟨r, hslot, rfl, fun h => h⟩
    have hcount : ∀ sl, Traced (NotFired r) s.store.slots[i].gen sl → Traced (CountIs r.fireCount) s.store.slots[i].gen sl := by
      rintro sl (⟨x, hx, hq⟩ | hx)
      · exact .inl ⟨x, hx, hq.1⟩
      · exact .inr hx
    rw [hst, settle_slots]
    unfold walkAtStore
    split
    · exact .inl hstart
    next d _ =>
      obtain ⟨hcomplete, hnodup, -⟩ := hlists.1 n
      obtain hnot | ⟨hmem, harmed, hfired⟩ := hbefore.met_all (nodup_metSet hnodup sp d p p') s.gates sp d _
      · exact .inl (hcount _ hnot)
      · have haxis : r.axis = n := by
          have := (hcomplete i).1 (mem_metSet.1 hmem).1
          simp only [isListed, hr, Bool.and_eq_true, decide_eq_true_eq] at this
          exact this.1
        exact .inr (.inr ⟨haxis ▸ hstate, harmed, hfired⟩)

/-- Settles O45: no request fires a record; a walk, which TRACKING alone starts, meets no record twice, and only listed records of its
axis. -/
theorem recordsFireOnlyInTrackingAndOnce : Obligations.RecordsFireOnlyInTrackingAndOnce := by
  intro c s t i r r' hlists hexec hr hr' hne
  have hmove := (effect_of_exec hexec).storeMove
  obtain hsame | hfree | ⟨hstate, harmed, hfired⟩ := hmove.fireCount hlists hr
  · exact absurd (hsame.of_liveAs hr') hne
  · have hslot : t.store.slots[i] = ⟨s.store.slots[i].gen, .live r'⟩ := slot_of_liveAs hr'
    rw [hslot] at hfree
    cases hfree
  · exact ⟨hstate, hfired.of_liveAs hr', harmed⟩

end Sys2Proof.Machine
end

section
/-! The rows that answer no request: the step itself, hardware reset, the taking of requests, the front ends of the axes, and the pins
(O1, O3, O4, O7, O34, O35, O38, O51, O52). -/

namespace Sys2Proof.Machine

/-! ### The step and hardware reset -/

/-- Settles O1, by the two branches of a step. -/
theorem stepRunsTheFrontCommand : Obligations.StepRunsTheFrontCommand := by
  constructor
  · intro c rest s h
    simp only [step, h]
  · intro s h
    simp only [step, h, tick]

/-- Settles O3: each block of the reset state holds its reset value. -/
theorem hardwareResetGivesTheResetValues : Obligations.HardwareResetGivesTheResetValues := by
  refine ⟨fun s => ⟨_, rfl, ?_⟩, fun s => rfl⟩
  have hlines (l : LineNo) : ({ resetBlocks s with resetLow := true } : State).lines[l] = {} := by
    simp [resetBlocks, State.reset]
  refine ⟨fun i => ?_, fun n => ?_, rfl, rfl, rfl, fun l => ⟨hlines l, rfl⟩, fun n => ?_, rfl, rfl, rfl, rfl, rfl, rfl, rfl, rfl⟩
  · simp [resetBlocks, State.reset]
  · simp [resetBlocks, State.reset]
  · simp [resetBlocks]

/-- Settles O4: of the effects of a command, none but a pin's level is open to it while RESETn is low. -/
theorem duringResetOnlyTheInputPinsFollow : Obligations.DuringResetOnlyTheInputPinsFollow := by
  intro c s t hlow htr hend hhard hexec
  have hserving : ∀ f, ¬ Serving s f := fun f hf => Bool.noConfusion (hlow.symm.trans hf.1)
  have hup : s.resetLow ≠ false := by simp [hlow]
  cases effect_of_exec hexec with
  | nothing => exact ⟨rfl, fun n => rfl⟩
  | pins hc =>
    rcases hc with rfl | hc
    · exact ⟨rfl, fun n => rfl⟩
    · exact absurd hc hend
  | @axisPins n a b =>
    refine ⟨rfl, fun k => ?_⟩
    by_cases hk : k = n
    · subst hk; simp
    · rw [setAxis_axes, getElem_put_ne _ _ _ _ hk]
  | refused hf => exact absurd hf (hserving _)
  | granted hf => exact absurd hf (hserving _)
  | drives hf => exact absurd hf (hserving _)
  | reset hc => exact absurd hc hhard
  | ends _ h => rw [htr] at h; cases h
  | starts h => exact absurd h hup
  | takes _ h => exact absurd h hup
  | sampleDue h => exact absurd h hup
  | polled h => exact absurd h hup
  | source h => exact absurd h hup
  | dwellEnds h => exact absurd h hup
  | pulseEnds h => exact absurd h hup

/-- Settles O52: after reset there is no record, no batch, no frame and no claim. -/
theorem resetIsSafe : Obligations.ResetIsSafe := by
  have hempty : ∀ i, liveAt State.reset.store i = none := fun i => by simp [liveAt, State.reset]
  have hnone : NoneReserved State.reset.store := fun i r h => by simp [State.reset] at h
  refine ⟨noticesWaiting_empty.symm, ?_, ?_, fun n => ?_, fun l => ?_, ⟨?_, ?_⟩, ?_, batchConsistent_empty rfl hnone, ?_⟩
  · simp [QueuesBounded, State.reset]
  · exact occupancyCounts_kept.empty
  · have h := (axisLegal_iff _).2 (axisFacts_reset .low .low)
    simpa [State.reset] using h
  · simp [LineLegal, State.reset]
  · intro n
    have hlist : State.reset.store.lists[n] = [] := by simp [State.reset]
    rw [hlist]
    simp [isListed, hempty]
  · intro i r h
    exact absurd h (hnone i r)
  · intro i r h
    rw [hempty] at h
    cases h
  · intro i r h
    rw [hempty] at h
    cases h

/-! ### Taking a request -/

/-- The parts of a response group by the code and, of a SCAN-AXIS, by the count (R153). -/
theorem partsNeeded_eq (f : Frame) :
    partsNeeded f =
      if u8 f 0 = 6 ∨ u8 f 0 = 10 then 2
      else if u8 f 0 = 7 ∧ (u8 f 9 = 3 ∨ u8 f 9 = 4) then 2
      else if u8 f 0 = 7 ∧ (u8 f 9 = 5 ∨ u8 f 9 = 6) then 3
      else 1 := by
  unfold partsNeeded
  split
  next h => simp [h]
  next h => simp [h]
  next h =>
    have h6 : ¬ (u8 f 0 = 6 ∨ u8 f 0 = 10) := by omega
    rw [if_neg h6]
    simp only [h, true_and]
    clear h h6
    generalize u8 f 9 = k
    split_ifs <;> omega
  next h6 h10 h7 => rw [if_neg (not_or.2 ⟨h6, h10⟩), if_neg fun h => h7 h.1, if_neg fun h => h7 h.1]

/-- Settles O7, by the cases of a take. -/
theorem takeRequestWaitsForRoom : Obligations.TakeRequestWaitsForRoom := by
  constructor
  · intro s hwait
    change execTakeRequest s = _
    unfold execTakeRequest
    split
    next f rest hqueue hidle =>
      rcases hwait with h | h
      · exact absurd hidle h
      · rw [hqueue] at h
        cases h
    next => rfl
  · intro s f rest hreset hqueue hidle
    simp only [← partsNeeded_eq]
    change execTakeRequest s = _
    simp only [execTakeRequest, hqueue, hidle, hreset, Bool.not_false, Bool.true_and, roomFor_iff]
    split <;> rfl

/-! ### Front ends -/

/-- Settles O34, by the two conditions of an index event. -/
theorem indexEventReferences : Obligations.IndexEventReferences := by
  constructor
  · intro s n hstopped
    change execIndexEvent n s = _
    simp only [execIndexEvent, hstopped, or_true, if_true]
  · intro s n hreset hrun
    have hexec : exec (.indexEvent n) s = .next (indexSeen n s) := by
      change execIndexEvent n s = _
      simp only [execIndexEvent, hreset, hrun, Bool.false_eq_true, Bool.true_eq_false, or_self, if_false]
    rw [hexec]
    constructor
    · intro hwanted
      rw [indexSeen, if_pos hwanted]
      rfl
    · intro hwanted
      rw [indexSeen, if_neg hwanted]

/-- Settles O35. -/
theorem sampleTimerExpiryStartsAPoll : Obligations.SampleTimerExpiryStartsAPoll := by
  intro s n due hreset hlink hdue hpoll
  change execSampleTimerExpiry n s = _
  have hacts : (if acts s.axes[n].state = true then some ([] : List Bool) else none) =
      if s.axes[n].state = .unreferenced ∨ s.axes[n].state = .tracking ∨ s.axes[n].state = .suspect then some [] else none :=
    if_congr (acts_iff _) rfl rfl
  simp only [execSampleTimerExpiry, hdue, hpoll, hreset, hlink, Bool.false_eq_true, ne_eq, not_true_eq_false, or_self,
    if_false, hacts, Config.ticksPerMicrosecond, advanceTo]

/-- Of the axis only the front end has changed: what the tracker holds is as it was. -/
structure TrackerKept (a a' : Axis) : Prop where
  state : a'.state = a.state
  position : a'.position = a.position
  seeking : a'.seeking = a.seeking
  warn : a'.warn = a.warn
  lastCause : a'.lastCause = a.lastCause
  config : a'.config = a.config

section Ignored

variable {n : AxisNo} {s : State}

theorem candidate_of_not_acts (h : acts s.axes[n].state = false) (exact : Int) : candidate n exact s = s := by
  simp only [candidate, h, Bool.not_false, if_true]

theorem countStep_of_not_acts (h : acts s.axes[n].state = false) (forward : Bool) : countStep n forward s = s :=
  candidate_of_not_acts h _

theorem decodeError_of_not_acts (h : acts s.axes[n].state = false) : decodeError n s = s := by
  rw [decodeError, if_neg]
  intro htracking
  rw [htracking] at h
  cases h

theorem indexSeen_of_not_acts (h : acts s.axes[n].state = false) : indexSeen n s = s := by
  rw [indexSeen, if_neg]
  rintro ⟨hunref, -⟩
  rw [hunref] at h
  cases h

theorem linkFault_of_not_acts (h : acts s.axes[n].state = false) (c : Cause) : linkFault n c s = s := by
  simp only [linkFault, h, Bool.false_eq_true, if_false]

theorem goodSample_of_not_acts (h : acts s.axes[n].state = false) (raw : Nat) (warn : Bool) :
    goodSample n raw warn s = s := by
  simp only [goodSample, h, Bool.not_false, if_true]

/-- A poll that ends on an axis that does not act changes its receiver alone. -/
theorem endPoll_of_not_acts (h : acts s.axes[n].state = false) (o : PollOutcome) :
    ∃ k, endPoll n o s = setAxis n { s.axes[n] with poll := none, failures := k } s := by
  have hset : ∀ a : Axis, a.state = s.axes[n].state → acts (setAxis n a s).axes[n].state = false := fun a ha => by
    rw [axes_setAxis_self, ha, h]
  have hended := fun k => hset { s.axes[n] with poll := none, failures := k } rfl
  cases o with
  | good raw warn => exact ⟨0, goodSample_of_not_acts (hended 0) raw warn⟩
  | alarm => exact ⟨s.axes[n].failures, linkFault_of_not_acts (hended _) .encoder⟩
  | bad =>
    unfold endPoll badOutcome
    simp only
    split
    · exact ⟨0, linkFault_of_not_acts (hended 0) .link⟩
    · exact ⟨_, rfl⟩

/-- A source event of an axis that does not act changes its front end, and lets time pass. -/
def Ignored (n : AxisNo) (s t : State) : Prop :=
  ∃ (a : Axis) (now : Nat), TrackerKept s.axes[n] a ∧ t = setAxis n a { s with now := now }

theorem ignored_setAxis {a : Axis} (h : TrackerKept s.axes[n] a) : Ignored n s (setAxis n a s) :=
  ⟨a, s.now, h, rfl⟩

theorem ignored_refl (n : AxisNo) (s : State) : Ignored n s s :=
  ⟨s.axes[n], s.now, ⟨rfl, rfl, rfl, rfl, rfl, rfl⟩, (setAxis_self n s).symm⟩

theorem quadEdge_ignored (h : acts s.axes[n].state = false) (a b : Level) {t : State}
    (hexec : execQuadEdge n a b s = .next t) : Ignored n s t := by
  have hseen : acts (setAxis n { s.axes[n] with xa := a, xb := b, lastPair := (a, b) } s).axes[n].state = false := by
    rw [axes_setAxis_self]; exact h
  unfold execQuadEdge at hexec
  simp only [countStep_of_not_acts hseen, decodeError_of_not_acts hseen] at hexec
  split at hexec
  · cases hexec; exact ignored_setAxis ⟨rfl, rfl, rfl, rfl, rfl, rfl⟩
  · split at hexec <;> cases hexec <;> exact ignored_setAxis ⟨rfl, rfl, rfl, rfl, rfl, rfl⟩

theorem indexEvent_ignored (h : acts s.axes[n].state = false) {t : State} (hexec : execIndexEvent n s = .next t) :
    Ignored n s t := by
  unfold execIndexEvent at hexec
  rw [indexSeen_of_not_acts h, ite_self] at hexec
  cases hexec
  exact ignored_refl n s

theorem sampleTimerExpiry_ignored {t : State} (hexec : execSampleTimerExpiry n s = .next t) : Ignored n s t := by
  unfold execSampleTimerExpiry at hexec
  simp only at hexec
  split at hexec
  next due _ _ =>
    split at hexec
    · cases hexec; exact ignored_refl n s
    · cases hexec
      refine ⟨{ s.axes[n] with
          sampleNext := some (due + Config.ticksPerMicrosecond * s.axes[n].config.samplePeriod)
          poll := if acts s.axes[n].state then some [] else none }, max s.now due, ⟨rfl, rfl, rfl, rfl, rfl, rfl⟩, rfl⟩
  · cases hexec; exact ignored_refl n s

theorem endPoll_ignored (h : acts s.axes[n].state = false) (o : PollOutcome) : Ignored n s (endPoll n o s) := by
  obtain ⟨k, hk⟩ := endPoll_of_not_acts h o
  rw [hk]
  exact ignored_setAxis ⟨rfl, rfl, rfl, rfl, rfl, rfl⟩

theorem pollTimeout_ignored (h : acts s.axes[n].state = false) {t : State} (hexec : execPollTimeout n s = .next t) :
    Ignored n s t := by
  unfold execPollTimeout at hexec
  split at hexec
  · cases hexec; exact ignored_refl n s
  · split at hexec
    · cases hexec; exact ignored_refl n s
    · cases hexec; exact endPoll_ignored h .bad

theorem pollEnd_ignored (h : acts s.axes[n].state = false) (reply : List Bool) {t : State}
    (hexec : execPollEnd n reply s = .next t) : Ignored n s t := by
  unfold execPollEnd at hexec
  split at hexec
  · cases hexec; exact ignored_refl n s
  · split at hexec
    · cases hexec; exact ignored_refl n s
    · split at hexec
      · cases hexec; exact endPoll_ignored h _
      · cases hexec; exact ignored_setAxis ⟨rfl, rfl, rfl, rfl, rfl, rfl⟩

end Ignored

/-- Settles O38: a tracker that does not act keeps what it holds through each of its source events. -/
theorem parkedOrFaultedAxisIgnoresItsSource : Obligations.ParkedOrFaultedAxisIgnoresItsSource := by
  intro s t n c hstate hc hexec
  have hacts : acts s.axes[n].state = false := by rcases hstate with h | h <;> rw [h] <;> rfl
  have hignored : Ignored n s t := by
    obtain ⟨a, b, rfl⟩ | rfl | rfl | rfl | ⟨reply, rfl⟩ := hc
    · exact quadEdge_ignored hacts a b hexec
    · exact indexEvent_ignored hacts hexec
    · exact sampleTimerExpiry_ignored hexec
    · exact pollTimeout_ignored hacts hexec
    · exact pollEnd_ignored hacts reply hexec
  obtain ⟨a, now, hkept, rfl⟩ := hignored
  refine ⟨rfl, fun k hk => ?_, ?_⟩
  · rw [setAxis_axes, getElem_put_ne _ _ _ _ hk]
  · rw [axes_setAxis_self]
    exact ⟨hkept.state, hkept.position, hkept.seeking, hkept.warn, hkept.lastCause, hkept.config⟩

/-! ### Pins -/

theorem tripPin_eq {s : State} (hreset : s.resetLow = false) (l : LineNo) :
    tripPin s l = pinLevel (decide (s.inhn = .low)) s.lines[l] := by
  simp only [tripPin, hreset, Bool.false_eq_true, if_false, inhibited]

theorem xbDrive_pollWord {s : State} {n : AxisNo} (hreset : s.resetLow = false) (hruns : pollRuns s.axes[n] = true)
    {k : Nat} {b : Bool} (hk : pollWord[k]? = some b) : xbDrive s n k = .driven (bitLevel b) := by
  simp only [xbDrive, hreset, hruns, Bool.false_eq_true, Bool.true_eq_false, or_self, if_false, hk]

theorem xbDrive_after_pollWord {s : State} {n : AxisNo} {k : Nat} (hk : 4 ≤ k) : xbDrive s n k = .released := by
  have hnone : pollWord[k]? = none := List.getElem?_eq_none hk
  simp only [xbDrive, hnone, ite_self]

theorem xbDrive_of_not_runs {s : State} {n : AxisNo} (hruns : pollRuns s.axes[n] = false) (k : Nat) :
    xbDrive s n k = .released := by
  simp only [xbDrive, hruns, or_true, if_true]

theorem xaDrive_of_link {s : State} {n : AxisNo} (hreset : s.resetLow = false) (hlink : s.axes[n].config.source = .link)
    (k : Nat) : xaDrive s n k = .driven (bitLevel (!pollRuns s.axes[n] || k % 2 == 1)) := by
  simp only [xaDrive, hreset, hlink, Bool.false_eq_true, ne_eq, not_true_eq_false, or_self, if_false]

/-- Bit `bit` of byte `byte` is shifted after the bytes before it and the more significant bits of its own. -/
theorem shiftedBit_eq (f : Frame) (byte : Fin 32) (bit : Fin 8) :
    shiftedBit f (8 * byte.val + (7 - bit.val)) = (byteAt f byte.val).getLsbD bit.val := by
  have hlt : 8 * byte.val + (7 - bit.val) < 256 := by omega
  have hdiv : (8 * byte.val + (7 - bit.val)) / 8 = byte.val := by omega
  have hmod : (8 * byte.val + (7 - bit.val)) % 8 = 7 - bit.val := by omega
  have hbit : 8 - 1 - (7 - bit.val) = bit.val := by omega
  have h8 : 7 - bit.val < 8 := by omega
  rw [shiftedBit, if_pos hlt, hdiv, hmod, BitVec.getMsbD, hbit, decide_eq_true h8, Bool.true_and]

/-- Settles O51, pin by pin. -/
theorem inputPinChangesAndOutputPinLevels : Obligations.InputPinChangesAndOutputPinLevels := by
  refine ⟨fun s level => rfl, fun s g level => ⟨_, rfl, rfl, ?_, fun k hk => ?_⟩, fun s l hreset => ?_, fun s hreset => ?_,
    fun s n hreset => ⟨fun hsource k => ?_, fun hlink hpoll k => ?_, fun hlink hpoll => ?_⟩, fun s => ⟨fun hnone k => ?_, ?_⟩⟩
  · exact getElem_put_self _ _ _
  · exact getElem_put_ne _ _ _ _ hk
  · rw [tripPin_eq hreset, pinLevel]
    cases s.inhn <;> cases s.lines[l].polarity <;> cases s.lines[l].level <;> rfl
  · simp only [attentionPin, hreset, Bool.false_eq_true, if_false]
    cases s.store.attention <;> simp
  · have hruns : pollRuns s.axes[n] = false := by
      simp only [pollRuns, hsource, decide_false, Bool.false_and]
    refine ⟨?_, xbDrive_of_not_runs hruns k⟩
    simp only [xaDrive, ne_eq, hsource, not_false_eq_true, or_true, if_true]
  · have hruns : pollRuns s.axes[n] = false := by
      simp only [pollRuns, hpoll, Option.isSome_none, Bool.and_false]
    refine ⟨?_, xbDrive_of_not_runs hruns k⟩
    rw [xaDrive_of_link hreset hlink, hruns]
    rfl
  · have hruns : pollRuns s.axes[n] = true := by
      rw [pollRuns, Option.isSome_iff_ne_none.2 hpoll, decide_eq_true hlink, Bool.and_self]
    simp only [xaDrive_of_link hreset hlink, hruns]
    refine ⟨fun k => ⟨?_, ?_⟩, xbDrive_pollWord (b := true) hreset hruns rfl, xbDrive_pollWord (b := false) hreset hruns rfl,
      xbDrive_pollWord (b := true) hreset hruns rfl, xbDrive_pollWord (b := false) hreset hruns rfl,
      fun k hk => xbDrive_after_pollWord hk⟩
    · simp [bitLevel]
    · simp [bitLevel, Nat.add_mod]
  · simp only [sdoDrive, hnone]
  · intro t ht
    simp only [sdoDrive, ht, shiftedBit_eq]
    refine ⟨fun byte bit => rfl, fun k hk => ?_⟩
    rw [shiftedBit, if_neg (by omega)]
    rfl

end Sys2Proof.Machine
end

section
/-! The outgoing frame of a transaction, byte by byte (O5). -/

namespace Sys2Proof.Machine

/-! ### A sealed frame -/

theorem toList_fill_of_length {α : Type} {n : Nat} (d : α) {l : List α} (h : l.length = n) : (fill n d l).toList = l := by
  subst h
  simp [fill]

theorem toList_sealFrame {bytes : List Byte} (h : bytes.length = 30) :
    (sealFrame bytes).toList = bytes ++ [(crc16 bytes).extractLsb' 8 8, (crc16 bytes).extractLsb' 0 8] :=
  toList_fill_of_length 0 (by simp [h])

theorem frameCheckPasses_sealFrame {bytes : List Byte} (h : bytes.length = 30) :
    frameCheckPasses (sealFrame bytes) = true := by
  rw [frameCheckPasses, decide_eq_true_iff, toList_sealFrame h, List.take_left' h]

/-- Bytes 0 to 29 of a sealed frame are those it was made of. -/
theorem byteAt_sealFrame {bytes : List Byte} (h : bytes.length = 30) {k : Nat} (hk : k < 30) :
    byteAt (sealFrame bytes) k = bytes.getD k 0 := by
  rw [byteAt, toList_sealFrame h, List.getD_append _ _ _ _ (by omega)]

/-! ### Its parts -/

theorem length_statusHeader (s : State) (b : Bool) : (statusHeader s b).length = 5 := rfl

theorem length_partBytes (p : ResponsePart) : (partBytes p).length = 25 := by
  simp [partBytes, be8, halves]

/-- A byte of the status header is that byte of the frame. -/
theorem byteAt_header {s : State} {b : Bool} {rest : List Byte} (h : rest.length = 25) {k : Nat} (hk : k < 5) :
    byteAt (sealFrame (statusHeader s b ++ rest)) k = (statusHeader s b).getD k 0 := by
  rw [byteAt_sealFrame (by simp [length_statusHeader, h]) (by omega), List.getD_append _ _ _ _ (by simpa [length_statusHeader])]

/-- A byte after the status header is that byte of what follows it. -/
theorem byteAt_after_header {s : State} {b : Bool} {rest : List Byte} (h : rest.length = 25) {k : Nat} (hk : k < 25) :
    byteAt (sealFrame (statusHeader s b ++ rest)) (5 + k) = rest.getD k 0 := by
  rw [byteAt_sealFrame (by simp [length_statusHeader, h]) (by omega),
    List.getD_append_right _ _ _ _ (by simp [length_statusHeader]), length_statusHeader, Nat.add_sub_cancel_left]

/-- What the status header reads, byte by byte (section 10.5.2). -/
structure HeaderRead (s : State) (o : Frame) (b : Bool) : Prop where
  passes : frameCheckPasses o = true
  free : byteAt o 0 = BitVec.ofNat 8 (8 - s.port.requestQueue.length)
  waiting : byteAt o 1 = BitVec.ofNat 8 s.port.responseQueue.length
  flags : byteAt o 2 = BitVec.ofNat 8 (s.store.attention.toNat + 2 * s.port.resetFlag.toNat + 4 * b.toNat)
  outcome : byteAt o 3 = BitVec.ofNat 8 (outcomeValue s.port.lastOutcome)
  tag : byteAt o 4 = s.port.lastTag

theorem headerRead (s : State) (b : Bool) {rest : List Byte} (h : rest.length = 25) :
    HeaderRead s (sealFrame (statusHeader s b ++ rest)) b where
  passes := frameCheckPasses_sealFrame (by simp [length_statusHeader, h])
  free := byteAt_header h (by omega)
  waiting := byteAt_header h (by omega)
  flags := by
    rw [byteAt_header h (by omega)]
    change BitVec.ofNat 8 (bitsToNat [b, s.port.resetFlag, s.store.attention]) = _
    cases b <;> cases s.port.resetFlag <;> cases s.store.attention <;> rfl
  outcome := byteAt_header h (by omega)
  tag := byteAt_header h (by omega)

/-! ### TRANSACTION_START -/

theorem execTransactionStart_of_high {s : State} (hscs : s.scsn = .high) (hreset : s.resetLow = false) :
    exec .transactionStart s =
      .next { s with
        scsn := .low
        port := { s.port with transaction := some ⟨outgoingFrame s, !s.port.responseQueue.isEmpty, 0⟩ } } := by
  change execTransactionStart s = _
  simp only [execTransactionStart, hscs, hreset, reduceCtorEq, Bool.false_eq_true, if_false]

/-- Settles O5: the frame is the header with the head part or zeros behind it, sealed. -/
theorem transactionStartFixesTheOutgoingFrame : Obligations.TransactionStartFixesTheOutgoingFrame := by
  intro s hscs hreset
  refine ⟨outgoingFrame s, ?_, ?_⟩
  · rw [execTransactionStart_of_high hscs hreset]
    cases s.port.responseQueue <;> rfl
  · unfold outgoingFrame
    split
    next p rest hqueue =>
      obtain ⟨hpasses, hfree, hwaiting, hflags, houtcome, htag⟩ := headerRead s true (length_partBytes p)
      have hbyte {k : Nat} (hk : k < 25) := byteAt_after_header (s := s) (b := true) (length_partBytes p) hk
      refine ⟨hpasses, hfree, hwaiting, ?_, houtcome, htag, ?_⟩
      · simpa [hqueue] using hflags
      · simp only [hqueue]
        refine ⟨hbyte (k := 0) (by omega), hbyte (k := 1) (by omega), hbyte (k := 2) (by omega), hbyte (k := 3) (by omega),
          fun k => ?_⟩
        rw [show 9 + k.val = 5 + (4 + k.val) by omega, hbyte (by omega)]
        change ([p.code, p.tag, _, _] ++ p.result.toList).getD (4 + k.val) 0 = _
        rw [List.getD_append_right _ _ _ _ (by simp)]
        simp
    next hqueue =>
      have hzeros : (List.replicate 25 (0 : Byte)).length = 25 := List.length_replicate
      obtain ⟨hpasses, hfree, hwaiting, hflags, houtcome, htag⟩ := headerRead s false hzeros
      refine ⟨hpasses, hfree, hwaiting, ?_, houtcome, htag, ?_⟩
      · simpa [hqueue] using hflags
      · simp only [hqueue]
        intro k h5 h30
        obtain ⟨j, rfl⟩ : ∃ j, k = 5 + j := ⟨k - 5, by omega⟩
        rw [byteAt_after_header hzeros (by omega)]
        exact List.getD_replicate _ (by omega)

end Sys2Proof.Machine
end

section
/-! Claims at a line driver, the line requests and the driver's own events (O47 to O50). -/

namespace Sys2Proof.Machine

/-! ### Bytes of a line response -/

theorem optionalBytes_be16 (o : Option Nat) : optionalBytes 2 be16 o = be16 (o.getD 0) := by
  cases o <;> rfl

theorem inhibitCode_eq (s : State) : inhibitCode s = if s.inhn = .low then 0 else 1 := by
  simp only [inhibitCode, inhibited, decide_eq_true_eq]

theorem isSome_pulseLeft (now : Nat) (d : LineDriver) : (pulseLeft now d).isSome = d.pulseEnd.isSome :=
  Option.isSome_map

theorem driveItems_eq (s : State) (d : LineDriver) :
    driveItems s d =
      bitsByte [d.pulseEnd.isSome] ++ be8 (logicalCode d.level) ++ be16 ((pulseLeft s.now d).getD 0)
        ++ be8 (if s.inhn = .low then 0 else 1) := by
  rw [driveItems, isSome_pulseLeft, optionalBytes_be16, inhibitCode_eq]

theorem lineItems_eq (s : State) (d : LineDriver) :
    lineItems s d =
      bitsByte [d.pulseEnd.isSome] ++ halves (logicalCode d.level) (polarityCode d.polarity)
        ++ be16 ((pulseLeft s.now d).getD 0)
        ++ halves (if s.inhn = .low then 0 else 1) (levelCode (pinLevel (s.inhn = .low) d))
        ++ be8 d.claims.length ++ flagByte d.dwellCut := by
  rw [lineItems, isSome_pulseLeft, optionalBytes_be16, inhibitCode_eq, inhibited]

/-! ### Arrival (R123) -/

section Arrival

variable {now : Nat} {c : LineClaim} {d : LineDriver}

theorem arrive_of_complete (hclaims : d.claims = []) (hdwell : d.dwellStart = none ∨ ∃ t, d.dwellStart = some t ∧ t + 1 ≤ now) :
    arrive now c d = (applyClaim now c d, some c) := by
  simp only [arrive, hclaims, (dwellComplete_iff now d).2 hdwell, if_true]

theorem arrive_of_running {t : Nat} (hclaims : d.claims = []) (hdwell : d.dwellStart = some t) (hnow : now < t + 1) :
    arrive now c d = ({ d with claims := [c] }, none) := by
  have hrunning : ¬ dwellComplete now d = true := by
    rw [dwellComplete_iff, hdwell]
    rintro (h | ⟨t', h, hle⟩)
    · cases h
    · cases h
      omega
  simp only [arrive, hclaims, if_neg hrunning]

theorem arrive_of_waiting (hpos : 1 ≤ d.claims.length) (hroom : d.claims.length ≤ 15) :
    arrive now c d = ({ d with claims := d.claims ++ [c] }, none) := by
  have hlt : d.claims.length < Config.claimPlaces := Nat.lt_succ_of_le hroom
  unfold arrive
  split
  next h => simp [h] at hpos
  next => rw [if_pos hlt]

theorem arrive_of_full {head : LineClaim} {rest : List LineClaim} (hclaims : d.claims = head :: rest)
    (hfull : d.claims.length = 16) :
    arrive now c d = (applyClaim now head { d with claims := rest ++ [c], dwellCut := true }, some head) := by
  have hlt : ¬ (head :: rest).length < Config.claimPlaces := by
    rw [← hclaims, hfull]
    exact Nat.lt_irrefl 16
  simp only [arrive, hclaims, if_neg hlt]

end Arrival

/-! ### Application (R125, R126) -/

theorem applyClaim_toggle_of_inactive {now : Nat} {d : LineDriver} (h : d.level = .inactive) (w : Option Nat) (req : Bool) :
    applyClaim now ⟨.toggle, w, req⟩ d = { d with level := .active, pulseEnd := none, dwellStart := some now } := by
  simp only [applyClaim, h]

theorem applyClaim_toggle_of_active {now : Nat} {d : LineDriver} (h : d.level = .active) (w : Option Nat) (req : Bool) :
    applyClaim now ⟨.toggle, w, req⟩ d = { d with level := .inactive, pulseEnd := none, dwellStart := some now } := by
  simp only [applyClaim, h]

/-- Just after its application a pulse has its whole width left; no other claim leaves a timer. -/
theorem pulseLeft_applyClaim {now : Nat} {c : LineClaim} {d : LineDriver} (hc : widthFits c.action c.width = true) :
    (pulseLeft now (applyClaim now c d)).getD 0 = c.width.getD 0 := by
  obtain ⟨action, width, req⟩ := c
  rcases (widthFits_iff _ _).1 hc with ⟨hp, k, hk, -⟩ | ⟨hp, hk⟩
  · dsimp only at hp hk
    subst hp hk
    change (now + 10 * k - now + 9) / 10 = k
    omega
  · dsimp only at hp hk
    subst hk
    cases action with
    | pulse => exact absurd rfl hp
    | _ => rfl

/-! ### The answer to a DRIVE-LINE (R131) -/

theorem drivenLine_eq_some_iff (f : Frame) (l : LineNo) : drivenLine f = some l ↔ u8 f 4 = l.val :=
  finOf_eq_some_iff l

theorem finishDrive_of_not_request {l : LineNo} {o : Option LineClaim} {s : State}
    (h : ∀ x, o = some x → x.fromRequest = false) : finishDrive l o s = s := by
  unfold finishDrive
  split
  next c f _ =>
    rw [if_neg]
    rintro ⟨hreq, -⟩
    rw [h c rfl] at hreq
    cases hreq
  next => rfl

theorem finishDrive_of_not_named {l : LineNo} {o : Option LineClaim} {s : State}
    (h : ∀ f, InProgress s f 22 → u8 f 4 ≠ l.val) : finishDrive l o s = s := by
  unfold finishDrive
  split
  next c f hf =>
    rw [if_neg]
    rintro ⟨-, hline⟩
    exact h f ((requestOf_eq_some_iff _ _ _).1 hf) ((drivenLine_eq_some_iff f l).1 hline)
  next => rfl

theorem finishDrive_of_request {l : LineNo} {x : LineClaim} {s : State} {f : Frame} (hreq : x.fromRequest = true)
    (hf : InProgress s f 22) (hline : u8 f 4 = l.val) :
    finishDrive l (some x) s = answered f .done (driveItems s s.lines[l]) s := by
  have hserves : requestOf driveLineCode s = some f := requestOf_of_inProgress hf
  simp only [finishDrive, hserves, hreq, (drivenLine_eq_some_iff f l).2 hline, and_self, if_true]
  rfl

/-- The driver that a claim moves, once the DRIVE-LINE whose claim it was is answered. -/
theorem finishDrive_setLine {l : LineNo} {x : LineClaim} {s : State} {f : Frame} (hreq : x.fromRequest = true)
    (hf : InProgress s f 22) (hline : u8 f 4 = l.val) (d : LineDriver) :
    finishDrive l (some x) (setLine l d s) =
      answered f .done
        (bitsByte [d.pulseEnd.isSome] ++ be8 (logicalCode d.level) ++ be16 ((pulseLeft s.now d).getD 0)
          ++ be8 (if s.inhn = .low then 0 else 1))
        (setLine l d s) := by
  rw [finishDrive_of_request (s := setLine l d s) hreq hf hline, lines_setLine_self, driveItems_eq]
  rfl

/-- Settles O47: arrival and application are their tables, and an arrival answers by the claim it applied. -/
theorem claimsArriveAndActByTheTables : Obligations.ClaimsArriveAndActByTheTables := by
  refine ⟨fun now c d => ⟨arrive_of_complete, fun t => arrive_of_running, arrive_of_waiting, fun head rest => arrive_of_full⟩,
    fun now d w req => ⟨rfl, rfl, fun h => applyClaim_toggle_of_inactive h w req, fun h => applyClaim_toggle_of_active h w req,
      fun width _ _ => ⟨rfl, fun later _ _ => rfl⟩⟩,
    fun s l c => ⟨fun h => ?_, fun h => ?_, fun x f hx hreq hf hline => ?_⟩⟩
  · exact finishDrive_of_not_named (s := setLine l _ s) h
  · exact finishDrive_of_not_request h
  · change finishDrive l (arrive s.now c s.lines[l]).2 (setLine l _ s) = _
    rw [hx]
    exact finishDrive_setLine hreq hf hline _

/-! ### DRIVE_LINE -/

theorem claimArrives_of_arrive {l : LineNo} {c : LineClaim} {s : State} {d : LineDriver} {o : Option LineClaim}
    (h : arrive s.now c s.lines[l] = (d, o)) : claimArrives l c s = finishDrive l o (setLine l d s) := by
  simp only [claimArrives, h]

/-- A width is given with PULSE alone, and then it is not 0 (R11). -/
theorem widthFits_iff_given (action : Action) (w : Option Nat) :
    widthFits action w = true ↔
      action = .pulse ∧ (w.isSome = true ∧ w ≠ some 0) ∨ action ≠ .pulse ∧ w = none := by
  rw [widthFits_iff]
  cases w <;> simp

theorem readDrive_of_clear {f : Frame} (hb : batchFlag f = false) :
    readDrive f =
      (fieldOr 4 7 (drivenLine f) >>= fun l => fieldOr 5 7 (actionOf (u8 f 5)) >>= fun action =>
        require (widthFits action (if bitAt f 3 0 then some (u16 f 6) else none)) (badField 6 7) >>= fun _ =>
          .ok (l, ⟨action, if bitAt f 3 0 then some (u16 f 6) else none, true⟩)) := by
  simp only [readDrive, noBatchFlag_of_clear hb, verdict_ok_bind, verdict_pure]

theorem actionOf_eq_none {n : Nat} (h : 4 ≤ n) : actionOf n = none := by
  unfold actionOf
  split
  case h_5 => rfl
  all_goals omega

theorem execDriveLine_of_error {s : State} {f : Frame} {e : Refused} (hf : InProgress s f 22) (h : readDrive f = .error e) :
    exec .driveLine s = .next (answered f e.code e.items s) := by
  have hserves : requestOf driveLineCode s = some f := requestOf_of_inProgress hf
  change execDriveLine s = _
  simp only [execDriveLine, hserves, h, answer_error]

theorem execDriveLine_of_ok {s : State} {f : Frame} {l : LineNo} {c : LineClaim} (hf : InProgress s f 22)
    (h : readDrive f = .ok (l, c)) (hwaits : ∀ k ∈ s.lines[l].claims, k.fromRequest = false) :
    exec .driveLine s = .next (claimArrives l c s) := by
  have hserves : requestOf driveLineCode s = some f := requestOf_of_inProgress hf
  have hnone : driveWaits l s = false := by
    rw [driveWaits, List.any_eq_false]
    exact fun k hk => by simp [hwaits k hk]
  change execDriveLine s = _
  simp only [execDriveLine, hserves, h, hnone, Bool.false_eq_true, if_false]

/-- Settles O48: the checks in order, then the claim by the ways of its arrival. -/
theorem driveLineOutcome : Obligations.DriveLineOutcome := by
  intro s f hf hb
  refine ⟨fun hline => ?_, fun l hline => ?_⟩
  · refine execDriveLine_of_error (e := badField 4 7) hf ?_
    rw [readDrive_of_clear hb, drivenLine, finOf_of_le hline, fieldOr_none, verdict_error_bind]
  have hread := readDrive_of_clear hb
  rw [(drivenLine_eq_some_iff f l).2 hline, fieldOr_some, verdict_ok_bind] at hread
  refine ⟨fun haction => ?_, fun action haction => ?_⟩
  · refine execDriveLine_of_error (e := badField 5 7) hf ?_
    rw [hread, actionOf_eq_none haction, fieldOr_none, verdict_error_bind]
  rw [haction, fieldOr_some, verdict_ok_bind] at hread
  simp only [← widthFits_iff_given]
  refine ⟨fun hwidth => ?_, fun hwidth hwaits => ?_⟩
  · refine execDriveLine_of_error (e := badField 6 7) hf ?_
    rw [hread, eq_false_of_ne_true hwidth, require_false, verdict_error_bind]
  rw [hwidth, require_true, verdict_ok_bind] at hread
  rw [execDriveLine_of_ok hf hread hwaits]
  refine ⟨fun hclaims hdwell => ?_, fun t hclaims hdwell hnow => ?_, fun hpos hroom => ?_, fun head rest hclaims hfull => ?_⟩
  · rw [claimArrives_of_arrive (arrive_of_complete hclaims hdwell), finishDrive_setLine (x := ⟨action, _, true⟩) rfl hf hline,
      pulseLeft_applyClaim hwidth]
  · rw [claimArrives_of_arrive (arrive_of_running hclaims hdwell hnow)]
    exact congrArg _ (finishDrive_of_not_request (by simp))
  · rw [claimArrives_of_arrive (arrive_of_waiting hpos hroom)]
    exact congrArg _ (finishDrive_of_not_request (by simp))
  · rw [claimArrives_of_arrive (arrive_of_full hclaims hfull)]
    refine congrArg _ (finishDrive_of_not_request fun x hx => ?_)
    cases hx
    exact hwaits head (by rw [hclaims]; exact List.mem_cons_self)

/-! ### CONFIG_LINE and LINE_STATUS -/

theorem polarityOf_eq_none {n : Nat} (h : 2 ≤ n) : polarityOf n = none := by
  unfold polarityOf
  split
  case h_3 => rfl
  all_goals omega

theorem exec_configLine {s : State} {f : Frame} (hf : InProgress s f 23) :
    exec .configLine s = .next (answer f (configLine f s) s) :=
  serve_of_some configLine s (requestOf_of_inProgress hf)

theorem exec_lineStatus {s : State} {f : Frame} (hf : InProgress s f 24) :
    exec .lineStatus s = .next (answer f (lineStatus f s) s) :=
  serve_of_some lineStatus s (requestOf_of_inProgress hf)

theorem configLine_of_clear {f : Frame} (hb : batchFlag f = false) (s : State) :
    configLine f s =
      (fieldOr 3 7 (finOf 16 (u8 f 3)) >>= fun l => fieldOr 4 7 (polarityOf (u8 f 4)) >>= fun p =>
        .ok (setLine l { s.lines[l] with polarity := p } s,
          doneWith (halves (polarityCode p) (logicalCode s.lines[l].level) ++ be8 (inhibitCode s)))) := by
  simp only [configLine, noBatchFlag_of_clear hb, verdict_ok_bind, verdict_pure]

theorem lineStatus_of_clear {f : Frame} (hb : batchFlag f = false) (s : State) :
    lineStatus f s =
      (fieldOr 3 7 (finOf 16 (u8 f 3)) >>= fun l =>
        .ok (setLine l { s.lines[l] with dwellCut := false } s, doneWith (lineItems s s.lines[l]))) := by
  simp only [lineStatus, noBatchFlag_of_clear hb, verdict_ok_bind, verdict_pure]

/-- Settles O49. -/
theorem configLineAndLineStatusOutcome : Obligations.ConfigLineAndLineStatusOutcome := by
  intro s f code hf hb
  refine ⟨?_, ?_, fun l hl => ⟨?_, ?_, ?_⟩⟩
  · rintro rfl hline
    rw [exec_configLine hf, configLine_of_clear hb, finOf_of_le hline, fieldOr_none, verdict_error_bind]
    rfl
  · rintro rfl hline
    rw [exec_lineStatus hf, lineStatus_of_clear hb, finOf_of_le hline, fieldOr_none, verdict_error_bind]
    rfl
  · rintro rfl hp
    rw [exec_configLine hf, configLine_of_clear hb, finOf_of_eq hl, polarityOf_eq_none hp, fieldOr_some, verdict_ok_bind,
      fieldOr_none, verdict_error_bind]
    rfl
  · rintro p rfl hp
    rw [exec_configLine hf, configLine_of_clear hb, finOf_of_eq hl, hp, fieldOr_some, verdict_ok_bind, fieldOr_some,
      verdict_ok_bind, inhibitCode_eq]
    rfl
  · rintro rfl
    rw [exec_lineStatus hf, lineStatus_of_clear hb, finOf_of_eq hl, fieldOr_some, verdict_ok_bind, lineItems_eq]
    rfl

/-! ### DWELL_END and PULSE_EXPIRY -/

theorem exec_dwellEnd {s : State} {l : LineNo} {t : Nat} (hreset : s.resetLow = false) (ht : s.lines[l].dwellStart = some t) :
    exec (.dwellEnd l) s = .next (applyHead l (advanceTo (t + Config.dwellTicks) s)) := by
  change execDwellEnd l s = _
  simp only [execDwellEnd, ht, hreset, Bool.false_eq_true, if_false]

theorem applyHead_of_nil {l : LineNo} {s : State} (h : s.lines[l].claims = []) : applyHead l s = s := by
  simp only [applyHead, h]

theorem applyHead_of_cons {l : LineNo} {s : State} {head : LineClaim} {rest : List LineClaim}
    (h : s.lines[l].claims = head :: rest) :
    applyHead l s =
      finishDrive l (some head) (setLine l (applyClaim s.now head { s.lines[l] with claims := rest }) s) := by
  simp only [applyHead, h]

/-- Settles O50. -/
theorem dwellEndAndPulseExpiryOutcome : Obligations.DwellEndAndPulseExpiryOutcome := by
  intro s l t hreset
  refine ⟨fun hend => ?_, fun hstart => ?_⟩
  · change execPulseExpiry l s = _
    simp only [execPulseExpiry, hend, hreset, Bool.false_eq_true, if_false, advanceTo]
  · rw [exec_dwellEnd hreset hstart]
    refine ⟨fun hclaims => ?_, fun head rest hclaims => ?_⟩
    · exact congrArg _ (applyHead_of_nil (s := advanceTo (t + Config.dwellTicks) s) hclaims)
    · rw [applyHead_of_cons (s := advanceTo (t + Config.dwellTicks) s) hclaims]
      refine ⟨fun hreq => ?_, fun f hreq hf hline => ?_⟩
      · exact congrArg _ (finishDrive_of_not_request fun x hx => by cases hx; exact hreq)
      · exact congrArg _ (finishDrive_setLine (s := advanceTo (t + Config.dwellTicks) s) hreq hf hline _)

end Sys2Proof.Machine
end

section
/-! The fields of a request, checked in the order of their tables: ADD-TRIP, MODIFY-TRIP and the record of a CONFIG-AXIS (O12, O13, and the
first half of O29). -/

namespace Sys2Proof.Machine

/-! ### Chains of checks against a table -/

/-- The checks `v` run down the table `failing`: the first place that is marked as failing is named, and where none is marked they answer
a value of which `Q` holds. -/
def ChecksInOrder {α : Type} (failing : List (Bool × Nat × Nat)) (v : Verdict α) (Q : α → Prop) : Prop :=
  match failing.find? (·.1) with
  | some (_, byte, bit) => v = .error (badField byte bit)
  | none => ∃ x, v = .ok x ∧ Q x

section Rules

variable {α β : Type} {Q : α → Prop} {rest : List (Bool × Nat × Nat)} {c c' : Bool} {byte bit : Nat}

theorem checks_nil {x : α} (h : Q x) : ChecksInOrder [] (.ok x) Q :=
  ⟨x, rfl, h⟩

/-- One step of the chain against one row of the table. -/
theorem checks_cons {step : Verdict β} {k : β → Verdict α} (herror : c = true → step = .error (badField byte bit))
    (hok : c = false → ∃ y, step = .ok y ∧ ChecksInOrder rest (k y) Q) :
    ChecksInOrder ((c, byte, bit) :: rest) (step >>= k) Q := by
  cases c with
  | true => rw [herror rfl, verdict_error_bind]; rfl
  | false =>
    obtain ⟨y, hy, hk⟩ := hok rfl
    rw [hy, verdict_ok_bind]
    exact hk

/-- A row that two checks of one field share. -/
theorem checks_or {v : Verdict α} (h : ChecksInOrder ((c, byte, bit) :: (c', byte, bit) :: rest) v Q) :
    ChecksInOrder ((c || c', byte, bit) :: rest) v Q := by
  cases c <;> exact h

theorem checks_field {o : Option β} {k : β → Verdict α} (hc : c = true ↔ o = none)
    (hk : ∀ y, o = some y → ChecksInOrder rest (k y) Q) :
    ChecksInOrder ((c, byte, bit) :: rest) (fieldOr byte bit o >>= k) Q := by
  refine checks_cons (fun h => by rw [hc.1 h, fieldOr_none]) fun h => ?_
  cases ho : o with
  | none => rw [hc.2 ho] at h; cases h
  | some y => exact ⟨y, rfl, hk y ho⟩

theorem checks_require {b : Bool} {k : Unit → Verdict α} (hc : c = !b) (hk : b = true → ChecksInOrder rest (k ()) Q) :
    ChecksInOrder ((c, byte, bit) :: rest) (require b (badField byte bit) >>= k) Q := by
  subst hc
  cases b with
  | false => exact checks_cons (fun _ => rfl) fun h => Bool.noConfusion h
  | true => exact checks_cons (fun h => Bool.noConfusion h) fun _ => ⟨(), rfl, hk rfl⟩

/-- What an optional item reads as: absent, or present with a value that its check admits. -/
structure ReadIf (present : Bool) (read o : Option β) : Prop where
  absent : present = false → o = none
  value : present = true → ∃ y, read = some y ∧ o = some y

theorem checks_optional {present : Bool} {read : Option β} {k : Option β → Verdict α}
    (hc : c = true ↔ present = true ∧ read = none) (hk : ∀ o, ReadIf present read o → ChecksInOrder rest (k o) Q) :
    ChecksInOrder ((c, byte, bit) :: rest) (optionalField present byte bit read >>= k) Q := by
  cases present with
  | false =>
    exact checks_cons (fun h => Bool.noConfusion (hc.1 h).1)
      fun _ => ⟨none, rfl, hk _ ⟨fun _ => rfl, fun h => Bool.noConfusion h⟩⟩
  | true =>
    cases read with
    | none => exact checks_cons (fun _ => rfl) fun h => by rw [hc.2 ⟨rfl, rfl⟩] at h; cases h
    | some y =>
      exact checks_cons (fun h => by cases (hc.1 h).2)
        fun _ => ⟨some y, rfl, hk _ ⟨fun h => Bool.noConfusion h, fun _ => ⟨y, rfl, rfl⟩⟩⟩

/-- What the change of an optional field reads as: SET with a value that its check admits, REMOVE or KEEP. -/
structure ChangeRead (e : Nat) (read : Option β) (ch : Change β) : Prop where
  set : e = 1 → ∃ y, read = some y ∧ ch = .set y
  remove : e = 2 → ch = .remove
  keep : e ≠ 1 → e ≠ 2 → ch = .keep

theorem checks_change {e : Nat} {read : Option β} {k : Change β → Verdict α} (hc : c = true ↔ e = 1 ∧ read = none)
    (hk : ∀ ch, ChangeRead e read ch → ChecksInOrder rest (k ch) Q) :
    ChecksInOrder ((c, byte, bit) :: rest) (changeField e byte bit read >>= k) Q := by
  unfold changeField
  by_cases he : e = 1
  · subst he
    cases read with
    | none => exact checks_cons (fun _ => rfl) fun h => by rw [hc.2 ⟨rfl, rfl⟩] at h; cases h
    | some y =>
      exact checks_cons (fun h => by cases (hc.1 h).2)
        fun _ => ⟨.set y, rfl, hk _ ⟨fun _ => ⟨y, rfl, rfl⟩, by simp, by simp⟩⟩
  · rw [if_neg he]
    refine checks_cons (fun h => absurd (hc.1 h).1 he) fun _ => ⟨_, rfl, hk _ ⟨fun h => absurd h he, fun h => ?_, fun _ h => ?_⟩⟩
    · rw [if_pos h]
    · rw [if_neg h]

end Rules

/-- The number that an optional item was read from. -/
theorem ReadIf.map_eq {β γ : Type} {present : Bool} {read o : Option β} (h : ReadIf present read o) {code : β → γ} {n : γ}
    (hcode : ∀ y, read = some y → code y = n) : o.map code = if present then some n else none := by
  cases hp : present with
  | false => rw [h.absent hp]; rfl
  | true =>
    obtain ⟨y, hy, ho⟩ := h.value hp
    rw [ho, Option.map_some, hcode y hy]
    rfl

theorem ReadIf.eq {β : Type} {present : Bool} {read o : Option β} (h : ReadIf present read o) {n : β}
    (hn : ∀ y, read = some y → y = n) : o = if present then some n else none := by
  rw [← h.map_eq hn, Option.map_id']

/-! ### Values of lists -/

theorem qualifierOf_eq_none_iff (n : Nat) : qualifierOf n = none ↔ 3 ≤ n := by
  rcases n with _ | _ | _ | n <;> simp [qualifierOf]

theorem qualifierCode_of_some {n : Nat} {q : Qualifier} (h : qualifierOf n = some q) : qualifierCode q = n := by
  unfold qualifierOf at h; split at h <;> cases h <;> rfl

theorem actionOf_eq_none_iff (n : Nat) : actionOf n = none ↔ 4 ≤ n := by
  rcases n with _ | _ | _ | _ | n <;> simp [actionOf]

theorem actionCode_of_some {n : Nat} {a : Action} (h : actionOf n = some a) : actionCode a = n := by
  unfold actionOf at h; split at h <;> cases h <;> rfl

theorem actionCode_eq_three_iff (a : Action) : actionCode a = 3 ↔ a = .pulse := by
  cases a <;> simp [actionCode]

theorem levelOf_eq_none_iff (n : Nat) : levelOf n = none ↔ 2 ≤ n := by
  rcases n with _ | _ | n <;> simp [levelOf]

theorem levelCode_of_some {n : Nat} {l : Level} (h : levelOf n = some l) : levelCode l = n := by
  unfold levelOf at h; split at h <;> cases h <;> rfl

theorem notifyOf_eq_none_iff (n : Nat) : notifyOf n = none ↔ 4 ≤ n := by
  rcases n with _ | _ | _ | _ | n <;> simp [notifyOf]

theorem notifyCode_of_some {n : Nat} {x : Notify} (h : notifyOf n = some x) : notifyCode x = n := by
  unfold notifyOf at h; split at h <;> cases h <;> rfl

theorem endModeOf_eq_none_iff (n : Nat) : endModeOf n = none ↔ 2 ≤ n := by
  rcases n with _ | _ | n <;> simp [endModeOf]

theorem endModeCode_of_some {n : Nat} {x : EndMode} (h : endModeOf n = some x) : endModeCode x = n := by
  unfold endModeOf at h; split at h <;> cases h <;> rfl

theorem initialStateOf_eq_none_iff (n : Nat) : initialStateOf n = none ↔ 2 ≤ n := by
  rcases n with _ | _ | n <;> simp [initialStateOf]

theorem stateCode_of_initial {n : Nat} {x : RecordState} (h : initialStateOf n = some x) : stateCode x = n := by
  unfold initialStateOf at h; split at h <;> cases h <;> rfl

theorem sourceOf_eq_none_iff (n : Nat) : sourceOf n = none ↔ 3 ≤ n := by
  rcases n with _ | _ | _ | n <;> simp [sourceOf]

theorem methodOf_eq_none_iff (n : Nat) : methodOf n = none ↔ 4 ≤ n := by
  rcases n with _ | _ | _ | _ | n <;> simp [methodOf]

theorem offOnOf_eq_none_iff (n : Nat) : offOnOf n = none ↔ 2 ≤ n := by
  rcases n with _ | _ | n <;> simp [offOnOf]

theorem offOnOf_of_some {n : Nat} {b : Bool} (h : offOnOf n = some b) : b = decide (n = 1) := by
  unfold offOnOf at h; split at h <;> cases h <;> rfl

theorem finOf_eq_none_iff (n k : Nat) : finOf n k = none ↔ n ≤ k := by
  unfold finOf; split <;> simp <;> omega

theorem val_of_finOf {n k : Nat} {x : Fin n} (h : finOf n k = some x) : x.val = k :=
  ((finOf_eq_some_iff x).1 h).symm

theorem nonZero_eq_none_iff (n : Nat) : nonZero n = none ↔ n = 0 := by
  unfold nonZero; split <;> simp_all

theorem eq_of_nonZero {n k : Nat} (h : nonZero n = some k) : k = n := by
  unfold nonZero at h; split at h <;> cases h; rfl

theorem within_eq_none_iff (lo hi n : Nat) : within lo hi n = none ↔ n < lo ∨ hi < n := by
  unfold within; split <;> simp <;> omega

theorem eq_of_within {lo hi n k : Nat} (h : within lo hi n = some k) : k = n :=
  (within_eq_some_iff.1 h).2.symm

theorem handleAt_eq_none_iff (f : Frame) (k : Nat) : handleAt f k = none ↔ 384 ≤ u16 f k / 64 := by
  simp only [handleAt]; split <;> simp <;> omega

theorem handleAt_eq_some_iff (f : Frame) (k : Nat) (h : Handle) :
    handleAt f k = some h ↔ h.slot.val = u16 f k / 64 ∧ h.gen = BitVec.ofNat 6 (u16 f k) := by
  obtain ⟨slot, gen⟩ := h
  simp only [handleAt]
  split
  · simp only [Option.some.injEq, Handle.mk.injEq, Fin.ext_iff]
    exact and_congr eq_comm eq_comm
  next hlt =>
    simp only [reduceCtorEq, false_iff, not_and]
    intro hs
    have := slot.isLt
    omega

theorem gateOf_eq_none_iff (f : Frame) (k : Nat) : gateOf f k = none ↔ 4 ≤ highHalf f k ∨ 2 ≤ lowHalf f k := by
  rw [← finOf_eq_none_iff, ← levelOf_eq_none_iff]
  unfold gateOf
  cases finOf 4 (highHalf f k) <;> cases levelOf (lowHalf f k) <;> simp

theorem of_gateOf {f : Frame} {k : Nat} {g : Gate} (h : gateOf f k = some g) :
    g.input.val = highHalf f k ∧ levelCode g.level = lowHalf f k := by
  unfold gateOf at h
  split at h
  next i l hi hl =>
    cases h
    exact ⟨val_of_finOf hi, levelCode_of_some hl⟩
  next => cases h

/-- A position of a request is out of range on a rotary axis alone (R10). -/
theorem positionIn_eq_none_iff (sp : Span) (f : Frame) (k : Nat) :
    positionIn sp (i32 f k) = none ↔ inRange sp (i32 f k) = false := by
  unfold positionIn
  cases inRange sp (i32 f k) <;> simp

theorem eq_of_positionIn {sp : Span} {p q : Int} (h : positionIn sp p = some q) : q = p := by
  unfold positionIn at h; split at h <;> cases h; rfl

/-- A four-byte position is out of range exactly where a rotary axis's modulus excludes it. -/
theorem not_inRange_i32_iff (sp : Span) (f : Frame) (k : Nat) :
    inRange sp (i32 f k) = false ↔ ∃ m, sp = .rotary m ∧ (i32 f k < 0 ∨ (m : Int) ≤ i32 f k) := by
  cases sp with
  | linear => simp [inRange_linear_i32]
  | rotary m =>
    rw [← Bool.not_eq_true, inRange_rotary_iff]
    simp only [Span.rotary.injEq, exists_eq_left']
    omega

/-! ### ADD-TRIP -/

theorem bool_eq_of_iff {a b : Bool} (h : a = true ↔ b = true) : a = b :=
  Bool.eq_iff_iff.2 h

/-- Settles O12: one rule of the chain for each row of the table. -/
theorem addTripFieldsAreCheckedInOrder : Obligations.AddTripFieldsAreCheckedInOrder := by
  intro cfg f
  refine ⟨fun haxis => ?_, fun n hn => ?_⟩
  · simp only [readTripFields, finOf_of_le haxis, fieldOr_none, verdict_error_bind]
  simp only [readTripFields, finOf_of_eq hn, fieldOr_some, verdict_ok_bind]
  refine checks_field (β := Int) ?_ fun position hposition => ?_
  · rw [positionIn_eq_none_iff, not_inRange_i32_iff]
    cases (cfg n).span <;> simp
  refine checks_field (by rw [qualifierOf_eq_none_iff, decide_eq_true_iff]) fun qualifier hqualifier => ?_
  refine checks_field (by rw [actionOf_eq_none_iff, decide_eq_true_iff]) fun action haction => ?_
  refine checks_field (by rw [finOf_eq_none_iff, decide_eq_true_iff]) fun line hline => ?_
  refine checks_require (bool_eq_of_iff ?_) fun hwidth => ?_
  · have hpulse : lowHalf f 9 = 3 ↔ action = .pulse := by
      rw [← actionCode_of_some haction, actionCode_eq_three_iff]
    rw [Bool.not_eq_true', ← Bool.not_eq_true (widthFits _ _), widthFits_iff, decide_eq_true_iff, hpulse]
    cases bitAt f 3 0 <;> simp [imp_iff_not_or]
  refine checks_optional ?_ fun pitch hpitch => ?_
  · rw [decide_eq_true_iff, within_eq_none_iff, Nat.lt_one_iff]
    cases (cfg n).span <;> rfl
  refine checks_optional (by rw [decide_eq_true_iff, nonZero_eq_none_iff]) fun repeats hrepeats => ?_
  refine checks_optional (by rw [decide_eq_true_iff, handleAt_eq_none_iff]) fun successor hsuccessor => ?_
  refine checks_optional (by rw [decide_eq_true_iff, gateOf_eq_none_iff]) fun gate hgate => ?_
  refine checks_field (by rw [notifyOf_eq_none_iff, decide_eq_true_iff]) fun notify hnotify => ?_
  refine checks_field (by rw [endModeOf_eq_none_iff, decide_eq_true_iff]) fun endMode hendMode => ?_
  refine checks_field (by rw [initialStateOf_eq_none_iff, decide_eq_true_iff]) fun state hstate => ?_
  refine checks_nil ⟨rfl, eq_of_positionIn hposition, qualifierCode_of_some hqualifier, actionCode_of_some haction,
    val_of_finOf hline, rfl, hpitch.eq fun _ => eq_of_within, hrepeats.eq fun _ => eq_of_nonZero,
    hsuccessor.map_eq fun h hh => ?_, hgate.map_eq fun g hg => ?_, notifyCode_of_some hnotify, endModeCode_of_some hendMode, rfl,
    stateCode_of_initial hstate⟩
  · obtain ⟨hslot, hgen⟩ := (handleAt_eq_some_iff f 19 h).1 hh
    rw [hslot, hgen]
  · obtain ⟨hinput, hlevel⟩ := of_gateOf hg
    rw [hinput, hlevel]

/-! ### The change entries of a MODIFY-TRIP -/

/-- Bit 0 of the change entry of the `i`-th field of the table of R9: SET. -/
def entrySet (f : Frame) (i : Nat) : Bool :=
  bitAt f (5 + i / 4) (6 - 2 * (i % 4))

/-- Bit 1 of the change entry of the `i`-th field of the table of R9: REMOVE. -/
def entryRemove (f : Frame) (i : Nat) : Bool :=
  bitAt f (5 + i / 4) (7 - 2 * (i % 4))

/-- Two neighbouring bits of a number. -/
theorem div_pow_mod_four (n k : Nat) : n / 2 ^ k % 4 = 2 * (n.testBit (k + 1)).toNat + (n.testBit k).toNat := by
  rw [Nat.toNat_testBit, Nat.toNat_testBit, pow_succ, ← Nat.div_div_eq_div_mul]
  omega

theorem bitAt_eq_testBit (f : Frame) (k i : Nat) : bitAt f k i = (u8 f k).testBit i :=
  (BitVec.testBit_toNat (byteAt f k)).symm

theorem entryBits_eq (f : Frame) (i : Nat) :
    entryBits f i = 2 * (entryRemove f i).toNat + (entrySet f i).toNat := by
  have hpow : 4 ^ (3 - i % 4) = 2 ^ (6 - 2 * (i % 4)) := by
    rw [show (4 : Nat) = 2 ^ 2 from rfl, ← pow_mul]
    congr 1
    omega
  have hbit : 7 - 2 * (i % 4) = 6 - 2 * (i % 4) + 1 := by omega
  rw [entryBits, hpow, div_pow_mod_four, entryRemove, entrySet, bitAt_eq_testBit, bitAt_eq_testBit, hbit]

/-- The change entry is one that R159 refuses. -/
def Refuses (f : Frame) (i : Nat) : Prop :=
  (entryRemove f i = true ∧ entrySet f i = true) ∨ ((entryRemove f i = true ∨ entrySet f i = true) ∧ (i < 2 ∨ 13 < i)) ∨
    (entryRemove f i = true ∧ (i < 6 ∨ 10 < i))

theorem entryRefused_iff (f : Frame) (i : Nat) : entryRefused i (entryBits f i) = true ↔ Refuses f i := by
  simp only [entryRefused, entryBits_eq, Refuses, Bool.or_eq_true, Bool.and_eq_true, beq_iff_eq, bne_iff_ne, ne_eq,
    Bool.not_eq_true', Bool.and_eq_false_iff, decide_eq_false_iff_not, not_le]
  cases entryRemove f i <;> cases entrySet f i <;> simp

theorem checkEntries_eq_ok_iff (f : Frame) : checkEntries f = .ok () ↔ ∀ i < 19, ¬ Refuses f i := by
  unfold checkEntries
  simp only [← entryRefused_iff]
  split
  next i hi =>
    obtain ⟨hrefused, hmem, -⟩ := List.find?_range_eq_some.1 hi
    simp only [reduceCtorEq, false_iff]
    exact fun h => h i (List.mem_range.1 hmem) hrefused
  next hnone =>
    simp only [true_iff]
    exact fun i hi => List.find?_eq_none.1 hnone i (List.mem_range.2 hi)

theorem checkEntries_eq_error {f : Frame} {i : Nat} (hi : i < 19) (hrefused : Refuses f i)
    (hfirst : ∀ j < i, ¬ Refuses f j) : checkEntries f = .error (badField (5 + i / 4) (7 - 2 * (i % 4))) := by
  have hfind : (List.range 19).find? (fun i => entryRefused i (entryBits f i)) = some i := by
    refine List.find?_range_eq_some.2 ⟨(entryRefused_iff f i).2 hrefused, List.mem_range.2 hi, fun j hj => ?_⟩
    rw [Bool.not_eq_true', ← Bool.not_eq_true, entryRefused_iff]
    exact hfirst j hj
  simp only [checkEntries, hfind]

section Entry

variable {f : Frame} {i : Nat}

theorem entryBits_beq_one (h : ¬ Refuses f i) : (entryBits f i == 1) = entrySet f i := by
  have hboth : ¬ (entryRemove f i = true ∧ entrySet f i = true) := fun hb => h (.inl hb)
  rw [entryBits_eq]
  cases hr : entryRemove f i <;> cases hs : entrySet f i <;> simp_all

theorem entryBits_eq_one_iff (h : ¬ Refuses f i) : entryBits f i = 1 ↔ entrySet f i = true := by
  rw [← entryBits_beq_one h, beq_iff_eq]

theorem entryBits_eq_two_iff (h : ¬ Refuses f i) : entryBits f i = 2 ↔ entryRemove f i = true := by
  have hboth : ¬ (entryRemove f i = true ∧ entrySet f i = true) := fun hb => h (.inl hb)
  rw [entryBits_eq]
  cases hr : entryRemove f i <;> cases hs : entrySet f i <;> simp_all

/-- A change as its two bits give it. -/
theorem ChangeRead.fits {α : Type} {read : Option α} {ch : Change α} (hc : ChangeRead (entryBits f i) read ch)
    (h : ¬ Refuses f i) {value : α → Prop} (hvalue : ∀ y, read = some y → value y) :
    (entrySet f i = true → ∃ v, ch = .set v ∧ value v) ∧ (entryRemove f i = true → ch = .remove) ∧
      (entrySet f i = false → entryRemove f i = false → ch = .keep) := by
  refine ⟨fun hs => ?_, fun hr => hc.remove ((entryBits_eq_two_iff h).2 hr), fun hs hr => hc.keep ?_ ?_⟩
  · obtain ⟨y, hy, hset⟩ := hc.set ((entryBits_eq_one_iff h).2 hs)
    exact ⟨y, hset, hvalue y hy⟩
  · rw [ne_eq, entryBits_eq_one_iff h, hs]; exact Bool.false_ne_true
  · rw [ne_eq, entryBits_eq_two_iff h, hr]; exact Bool.false_ne_true

/-- The field after its change. -/
theorem ChangeRead.applied {α : Type} {read : Option α} {ch : Change α} (hc : ChangeRead (entryBits f i) read ch)
    (h : ¬ Refuses f i) {n : α} (hvalue : ∀ y, read = some y → y = n) (o : Option α) :
    applyChange ch o = if entrySet f i = true then some n else if entryRemove f i = true then none else o := by
  obtain ⟨hset, hremove, hkeep⟩ := hc.fits h (value := (· = n)) hvalue
  cases hs : entrySet f i with
  | true =>
    obtain ⟨v, hv, rfl⟩ := hset hs
    rw [hv]; rfl
  | false =>
    cases hr : entryRemove f i with
    | true => rw [hremove hr]; rfl
    | false => rw [hkeep hs hr]; rfl

end Entry

end Sys2Proof.Machine
end

section
/-! The values of a MODIFY-TRIP and the record of a CONFIG-AXIS against their tables (O13, and the first half of O29). -/

namespace Sys2Proof.Machine

/-! ### The values of a MODIFY-TRIP -/

/-- A marked row of a field that is SET and whose value has no reading. -/
theorem set_row_iff {α : Type} {set c : Bool} {read : Option α} (hc : c = true ↔ read = none) :
    (set && c) = true ↔ set = true ∧ read = none := by
  rw [Bool.and_eq_true, hc]

/-- The width and the action that the record would have disagree. -/
theorem widthAfter_row {r : TripRecord} {action : Option Action} {width : Change Nat} {f : Frame}
    (haction : ReadIf (entrySet f 4) (actionOf (lowHalf f 14)) action)
    (hwidth : applyChange width r.width =
      if entrySet f 6 = true then some (u16 f 16) else if entryRemove f 6 = true then none else r.width) :
    decide
        (((if entrySet f 4 = true then lowHalf f 14 = 3 else r.action = .pulse) ∧
            ((if entrySet f 6 = true then some (u16 f 16) else if entryRemove f 6 = true then none else r.width) = none ∨
              (if entrySet f 6 = true then some (u16 f 16) else if entryRemove f 6 = true then none else r.width) = some 0)) ∨
          (¬ (if entrySet f 4 = true then lowHalf f 14 = 3 else r.action = .pulse) ∧
            (if entrySet f 6 = true then some (u16 f 16) else if entryRemove f 6 = true then none else r.width) ≠ none)) =
      !widthAfterFits r action width := by
  have hpulse : (if entrySet f 4 = true then lowHalf f 14 = 3 else r.action = .pulse) ↔ action.getD r.action = .pulse := by
    cases hs : entrySet f 4 with
    | false => rw [haction.absent hs]; exact Iff.rfl
    | true =>
      obtain ⟨a, ha, rfl⟩ := haction.value hs
      rw [if_pos rfl, ← actionCode_of_some ha, actionCode_eq_three_iff]
      exact Iff.rfl
  rw [← hwidth]
  refine bool_eq_of_iff ?_
  rw [Bool.not_eq_true', ← Bool.not_eq_true (widthAfterFits _ _ _), widthAfterFits, widthFits_iff, decide_eq_true_iff, hpulse]
  cases applyChange width r.width with
  | none => simp
  | some w => cases w <;> simp [em]

theorem position_row (f : Frame) (c : AxisConfig) :
    (entrySet f 2 && (match c.span with
      | .linear => false
      | .rotary m => decide (i32 f 10 < 0 ∨ (m : Int) ≤ i32 f 10))) =
      !positionFits c.span (if entrySet f 2 = true then some (i32 f 10) else none) := by
  cases entrySet f 2 with
  | false => rfl
  | true =>
    refine bool_eq_of_iff ?_
    rw [Bool.true_and, if_pos rfl, positionFits, Bool.not_eq_true', not_inRange_i32_iff]
    cases c.span <;> simp

theorem pitch_row {f : Frame} (h : ¬ Refuses f 7) {pitch : Change Nat}
    (hpitch : ChangeRead (entryBits f 7) (within 1 (maxPitch .linear) (u32 f 18)) pitch) (c : AxisConfig) :
    (entrySet f 7 && decide (maxPitch c.span < u32 f 18)) = !pitchFits c.span pitch := by
  obtain ⟨hset, hremove, hkeep⟩ := hpitch.fits h (value := fun v => v = u32 f 18 ∧ 1 ≤ v) fun v hv =>
    ⟨eq_of_within hv, by rw [within_eq_some_iff] at hv; omega⟩
  cases hs : entrySet f 7 with
  | true =>
    obtain ⟨v, rfl, hv, hpos⟩ := hset hs
    refine bool_eq_of_iff ?_
    rw [Bool.true_and, pitchFits, decide_eq_true_iff, Bool.not_eq_true', decide_eq_false_iff_not]
    omega
  | false =>
    cases hr : entryRemove f 7 with
    | true => rw [hremove hr]; rfl
    | false => rw [hkeep hs hr]; rfl

/-- A check that depends on the target is made where there is one. -/
theorem any_eq_not_all {α : Type} {o : Option α} {p q : α → Bool} (h : ∀ x, p x = !q x) : o.any p = !o.all q := by
  cases o with
  | none => rfl
  | some x => exact h x

theorem and_any {α : Type} (set : Bool) (o : Option α) (p : α → Bool) : (set && o.any p) = o.any fun x => set && p x := by
  cases o <;> cases set <;> rfl

/-- Settles O13: the entries by the first refused one, then one rule of the chain for each row of the table. -/
theorem modifyTripChangesAreCheckedInOrder : Obligations.ModifyTripChangesAreCheckedInOrder := by
  refine ⟨fun f => ⟨(checkEntries_eq_ok_iff f).2, fun i hi => checkEntries_eq_error hi⟩, fun judge f hentries => ?_⟩
  have hok : ∀ i < 19, ¬ Refuses f i := (checkEntries_eq_ok_iff f).1 hentries
  have hset {i : Nat} (hi : i < 19) := entryBits_beq_one (hok i hi)
  have hone {i : Nat} (hi : i < 19) := entryBits_eq_one_iff (hok i hi)
  simp only [readChanges, setField, hset (show 3 < 19 by omega), hset (show 4 < 19 by omega), hset (show 5 < 19 by omega),
    hset (show 11 < 19 by omega), hset (show 12 < 19 by omega), hone (show 2 < 19 by omega), hone (show 13 < 19 by omega)]
  refine checks_require (bool_eq_of_iff ?_) fun _ => ?_
  · rw [← Bool.eq_iff_iff]
    refine (and_any _ _ _).trans (any_eq_not_all fun j => position_row f j.1)
  refine checks_optional (set_row_iff (by rw [decide_eq_true_iff, qualifierOf_eq_none_iff])) fun qualifier hqualifier => ?_
  refine checks_optional (set_row_iff (by rw [decide_eq_true_iff, actionOf_eq_none_iff])) fun action haction => ?_
  refine checks_optional (set_row_iff (by rw [decide_eq_true_iff, finOf_eq_none_iff])) fun line hline => ?_
  refine checks_or (checks_change ?_ fun width hwidth => ?_)
  · rw [hone (by omega)]
    exact set_row_iff (by rw [decide_eq_true_iff, nonZero_eq_none_iff])
  refine checks_require (any_eq_not_all fun j =>
    widthAfter_row haction (hwidth.applied (hok 6 (by omega)) (fun _ => eq_of_nonZero) _)) fun _ => ?_
  rw [Bool.and_or_distrib_left]
  refine checks_or (checks_change ?_ fun pitch hpitch => ?_)
  · rw [hone (by omega)]
    refine set_row_iff ?_
    rw [decide_eq_true_iff, within_eq_none_iff, Nat.lt_one_iff]
    exact Iff.rfl
  refine checks_require ?_ fun _ => ?_
  · exact (and_any _ _ _).trans (any_eq_not_all fun j => pitch_row (hok 7 (by omega)) hpitch j.1)
  refine checks_change ?_ fun repeats hrepeats => ?_
  · rw [hone (by omega)]
    exact set_row_iff (by rw [decide_eq_true_iff, nonZero_eq_none_iff])
  refine checks_change ?_ fun successor hsuccessor => ?_
  · rw [hone (by omega)]
    exact set_row_iff (by rw [decide_eq_true_iff, handleAt_eq_none_iff])
  refine checks_change ?_ fun gate hgate => ?_
  · rw [hone (by omega)]
    exact set_row_iff (by rw [decide_eq_true_iff, gateOf_eq_none_iff])
  refine checks_optional (set_row_iff (by rw [decide_eq_true_iff, notifyOf_eq_none_iff])) fun notify hnotify => ?_
  refine checks_optional (set_row_iff (by rw [decide_eq_true_iff, endModeOf_eq_none_iff])) fun endMode hendMode => ?_
  exact checks_nil ⟨rfl, hqualifier.map_eq fun _ => qualifierCode_of_some, haction.map_eq fun _ => actionCode_of_some,
    hline.map_eq fun _ => val_of_finOf, hwidth.fits (hok 6 (by omega)) fun _ => eq_of_nonZero,
    hpitch.fits (hok 7 (by omega)) fun _ => eq_of_within, hrepeats.fits (hok 8 (by omega)) fun _ => eq_of_nonZero,
    hsuccessor.fits (hok 9 (by omega)) fun h => (handleAt_eq_some_iff f 24 h).1,
    hgate.fits (hok 10 (by omega)) fun _ => of_gateOf, hnotify.map_eq fun _ => notifyCode_of_some,
    hendMode.map_eq fun _ => endModeCode_of_some, rfl⟩

/-! ### The record of a CONFIG-AXIS -/

/-- The span's two rows: its sort, and of a rotary one its modulus (R73). -/
theorem checks_span {α : Type} {Q : α → Prop} {rest : List (Bool × Nat × Nat)} {f : Frame} {k : Span → Verdict α}
    (hk : ∀ sp, sp = (if u8 f 5 = 0 then .linear else .rotary (u32 f 6)) → ChecksInOrder rest (k sp) Q) :
    ChecksInOrder
      ((decide (2 ≤ u8 f 5), 5, 7) :: (decide (u8 f 5 = 1 ∧ (u32 f 6 < 16 ∨ 1073741824 < u32 f 6)), 6, 7) :: rest)
      (readSpan f >>= k) Q := by
  unfold readSpan
  split
  next h0 =>
    simp only [h0, nonpos_iff_eq_zero, OfNat.ofNat_ne_zero, decide_false, zero_ne_one, false_and]
    exact hk .linear (by rw [h0]; rfl)
  next h1 =>
    simp only [h1, Nat.not_ofNat_le_one, decide_false, true_and]
    change ChecksInOrder (_ :: rest) ((fieldOr 6 7 (within 16 1073741824 (u32 f 6)) >>= fun m => .ok (.rotary m)) >>= k) Q
    cases hm : within 16 1073741824 (u32 f 6) with
    | none =>
      rw [decide_eq_true ((within_eq_none_iff _ _ _).1 hm)]
      rfl
    | some m =>
      rw [decide_eq_false (fun h => by rw [(within_eq_none_iff _ _ _).2 h] at hm; cases hm)]
      exact hk (.rotary m) (by rw [h1, eq_of_within hm]; rfl)
  next h0 h1 =>
    rw [decide_eq_true ((Nat.two_le_iff _).2 ⟨h0, h1⟩)]
    rfl

theorem checks_range {α : Type} {Q : α → Prop} {rest : List (Bool × Nat × Nat)} {c : Bool} {byte lo hi n : Nat}
    {k : Nat → Verdict α} (hc : c = true ↔ n < lo ∨ hi < n) (hk : ∀ m, m = n → ChecksInOrder rest (k m) Q) :
    ChecksInOrder ((c, byte, 7) :: rest) (rangeField byte lo hi n >>= k) Q :=
  checks_field (hc.trans (within_eq_none_iff lo hi n).symm) fun m hm => hk m (eq_of_within hm)

/-- The fields of a CONFIG-AXIS against their ranges, in frame order (R73 check 3). -/
theorem readConfig_checks (f : Frame) :
    ChecksInOrder
      [(decide (3 ≤ highHalf f 4), 4, 7), (decide (2 ≤ lowHalf f 4), 4, 3), (decide (2 ≤ u8 f 5), 5, 7),
        (decide (u8 f 5 = 1 ∧ (u32 f 6 < 16 ∨ 1073741824 < u32 f 6)), 6, 7), (decide (4 ≤ u8 f 10), 10, 7),
        (decide (384 < u16 f 21), 21, 7), (decide (u8 f 23 < 8 ∨ 32 < u8 f 23), 23, 7),
        (decide (u16 f 24 < 50 ∨ 5000 < u16 f 24), 24, 7), (decide (u8 f 26 < 1 ∨ 15 < u8 f 26), 26, 7)]
      (readConfig f) fun c =>
        sourceOf (highHalf f 4) = some c.source ∧ c.countInvert = decide (lowHalf f 4 = 1) ∧
        c.span = (if u8 f 5 = 0 then .linear else .rotary (u32 f 6)) ∧ methodOf (u8 f 10) = some c.method ∧
        c.refValue = i32 f 11 ∧ c.offset = i32 f 15 ∧ c.slewGuard = u16 f 19 ∧ c.quota = u16 f 21 ∧
        c.wordWidth = u8 f 23 ∧ c.samplePeriod = u16 f 24 ∧ c.failureLimit = u8 f 26 := by
  unfold readConfig
  refine checks_field (by rw [sourceOf_eq_none_iff, decide_eq_true_iff]) fun source hsource => ?_
  refine checks_field (by rw [offOnOf_eq_none_iff, decide_eq_true_iff]) fun countInvert hinvert => ?_
  refine checks_span fun span hspan => ?_
  refine checks_field (by rw [methodOf_eq_none_iff, decide_eq_true_iff]) fun method hmethod => ?_
  refine checks_range (by simp) fun quota hquota => ?_
  refine checks_range (by rw [decide_eq_true_iff]) fun wordWidth hwidth => ?_
  refine checks_range (by rw [decide_eq_true_iff]) fun samplePeriod hperiod => ?_
  refine checks_range (by rw [decide_eq_true_iff]) fun failureLimit hlimit => ?_
  exact checks_nil ⟨hsource, offOnOf_of_some hinvert, hspan, hmethod, rfl, rfl, rfl, hquota, hwidth, hperiod, hlimit⟩

end Sys2Proof.Machine
end

section
/-! The axis requests and the source events at the tracker (O29 to O33, O36, O37). -/

namespace Sys2Proof.Machine

/-! ### Transitions of a tracker -/

section Transitions

variable {n : AxisNo} {s : State} {a : Axis}

theorem becomeFaulted_eq (ha : s.axes[n] = a) (c : Cause) :
    becomeFaulted n c s =
      withAxisEntry n { s.store.axisNotices[n] with faulted := some (s.store.axisNotices[n].faulted.getD c) }
        (setAxis n { a with state := .faulted, seeking := false, lastCause := c } s) := by
  subst ha; rfl

theorem becomeSuspect_eq (ha : s.axes[n] = a) (c : Cause) (p : Int) :
    becomeSuspect n c p s =
      withAxisEntry n { s.store.axisNotices[n] with suspect := some (s.store.axisNotices[n].suspect.getD c) }
        (setAxis n { a with state := .suspect, lastCause := c, position := p } s) := by
  subst ha; rfl

theorem reference_eq (ha : s.axes[n] = a) (p : Int) :
    reference n p s =
      withAxisEntry n { s.store.axisNotices[n] with referenced := true }
        (setAxis n { a with state := .tracking, seeking := false, position := reduce a.config.span p } s) := by
  subst ha; rfl

theorem candidate_of_fault (ha : s.axes[n] = a) (hacts : acts a.state = true) {exact : Int}
    (hfault : isRangeFault a.config.span exact = true) : candidate n exact s = becomeFaulted n .range s := by
  subst ha
  simp only [candidate, hacts, hfault, Bool.not_true, Bool.false_eq_true, if_false, if_true]

theorem candidate_of_update (ha : s.axes[n] = a) (hstate : a.state = .tracking) {exact : Int}
    (hfault : isRangeFault a.config.span exact = false)
    (hguard : guardAdmits a.config a.position (reduce a.config.span exact) = true) :
    candidate n exact s = positionUpdate n (reduce a.config.span exact) s := by
  subst ha
  simp only [candidate, hstate, acts, hfault, hguard, Bool.not_true, Bool.false_eq_true, if_false, if_true]

theorem candidate_of_slew (ha : s.axes[n] = a) (hstate : a.state = .tracking) {exact : Int}
    (hfault : isRangeFault a.config.span exact = false)
    (hguard : guardAdmits a.config a.position (reduce a.config.span exact) = false) :
    candidate n exact s = becomeSuspect n .slew (reduce a.config.span exact) s := by
  subst ha
  simp only [candidate, hstate, acts, hfault, hguard, Bool.not_true, Bool.false_eq_true, if_false, if_true]

theorem candidate_of_untracked (ha : s.axes[n] = a) (hacts : acts a.state = true) (hstate : a.state ≠ .tracking) {exact : Int}
    (hfault : isRangeFault a.config.span exact = false) :
    candidate n exact s = setAxis n { a with position := reduce a.config.span exact } s := by
  subst ha
  simp only [candidate, hacts, hstate, hfault, Bool.not_true, Bool.false_eq_true, if_false]

/-- A position in range is no range fault, and stays as it is when it is reduced. -/
theorem reduce_of_inRange {sp : Span} {p : Int} (h : inRange sp p = true) : reduce sp p = p := by
  cases sp with
  | linear => rfl
  | rotary m =>
    obtain ⟨h0, hm⟩ := (inRange_rotary_iff m p).1 h
    exact Int.emod_eq_of_lt h0 hm

theorem linkFault_of_acts (ha : s.axes[n] = a) (hacts : acts a.state = true) (c : Cause) :
    linkFault n c s = becomeFaulted n c s := by
  subst ha
  rw [linkFault, if_pos hacts]

end Transitions

/-! ### The answer of an axis request -/

section Requests

variable {s : State} {f : Frame} {n : AxisNo}

theorem exec_configAxis (hf : InProgress s f 15) : exec .configAxis s = .next (answer f (configAxis f s) s) :=
  serve_of_some configAxis s (requestOf_of_inProgress hf)

theorem exec_unparkAxis (hf : InProgress s f 16) : exec .unparkAxis s = .next (answer f (unparkAxis f s) s) :=
  serve_of_some unparkAxis s (requestOf_of_inProgress hf)

theorem exec_establishAxis (hf : InProgress s f 17) : exec .establishAxis s = .next (answer f (establishAxis f s) s) :=
  serve_of_some establishAxis s (requestOf_of_inProgress hf)

theorem exec_resumeAxis (hf : InProgress s f 18) : exec .resumeAxis s = .next (answer f (resumeAxis f s) s) :=
  serve_of_some resumeAxis s (requestOf_of_inProgress hf)

theorem exec_parkAxis (hf : InProgress s f 19) : exec .parkAxis s = .next (answer f (parkAxis f s) s) :=
  serve_of_some parkAxis s (requestOf_of_inProgress hf)

theorem exec_postPosition (hf : InProgress s f 21) : exec .postPosition s = .next (answer f (postPosition f s) s) :=
  serve_of_some postPosition s (requestOf_of_inProgress hf)

/-- The answer of an axis request whose checks have passed gives the state and position that it leaves. -/
theorem answer_axisReply {c : Completion} {t : State} {a : Axis} (ha : t.axes[n] = a) :
    answer f (.ok (axisReply c n t)) s = answered f c (be8 (axisStateCode a.state) ++ be32 a.position) t := by
  subst ha; rfl

theorem answer_axisReply_setAxis (c : Completion) (a : Axis) (t : State) :
    answer f (.ok (axisReply c n (setAxis n a t))) s =
      answered f c (be8 (axisStateCode a.state) ++ be32 a.position) (setAxis n a t) :=
  answer_axisReply (axes_setAxis_self n a t)

theorem answer_axisReply_entry (c : Completion) (e : AxisEntry) (a : Axis) (t : State) :
    answer f (.ok (axisReply c n (withAxisEntry n e (setAxis n a t)))) s =
      answered f c (be8 (axisStateCode a.state) ++ be32 a.position) (withAxisEntry n e (setAxis n a t)) :=
  answer_axisReply (axes_setAxis_self n a t)

theorem axes_withAxisEntry (e : AxisEntry) (t : State) : (withAxisEntry n e t).axes = t.axes := rfl

/-! ### CONFIG_AXIS -/

theorem configAxis_eq (hb : batchFlag f = false) (hn : u8 f 3 = n.val) :
    configAxis f s =
      (require (decide (s.axes[n].state = .parked)) (refuse .wrongState) >>= fun _ => readConfig f >>= fun c =>
        require (methodFitsSource c) methodCheckPlace >>= fun _ => require (sumFits c) sumCheckPlace >>= fun _ =>
        require (decide (c.span = s.axes[n].config.span ∨ s.store.lists[n] = [] ∧ reservedCount s.store n = 0))
          (refuse .wrongState) >>= fun _ =>
        require (c.quota == 0 || decide (s.store.occupancy[n] ≤ c.quota)) (refuse .quota) >>= fun _ =>
        .ok (setAxis n { s.axes[n] with config := c } s, doneWith [])) := by
  simp only [configAxis, namedAxis_of_clear hb hn, verdict_ok_bind, verdict_pure]

/-- Check 4 of R73 names the source or the reference method (log entry 9). -/
theorem methodCheckPlace_eq : methodCheckPlace = badField 4 7 ∨ methodCheckPlace = badField 10 7 := by
  unfold methodCheckPlace
  split
  · exact .inl rfl
  · exact .inr rfl

/-- Check 5 of R73 names the reference value or the offset (log entry 9). -/
theorem sumCheckPlace_eq : sumCheckPlace = badField 11 7 ∨ sumCheckPlace = badField 15 7 := by
  unfold sumCheckPlace
  split
  · exact .inr rfl
  · exact .inl rfl

/-- Check 4 of R73 fails. -/
theorem methodFitsSource_eq_false_iff (c : AxisConfig) :
    methodFitsSource c = false ↔ (c.method = .index ∧ c.source ≠ .quad) ∨ (c.method = .absolute ∧ c.source ≠ .link) := by
  rw [← Bool.not_eq_true, methodFitsSource_iff]
  tauto

/-- Check 5 of R73 fails. -/
theorem sumFits_eq_false_iff (c : AxisConfig) :
    sumFits c = false ↔
      c.span = .linear ∧ (c.method = .none ∨ c.method = .index) ∧
        (c.refValue + c.offset < -2147483648 ∨ 2147483647 < c.refValue + c.offset) := by
  rw [← Bool.not_eq_true, sumFits_iff]
  constructor
  · intro h
    by_contra hnot
    refine h fun hsp hm => ?_
    by_contra hout
    exact hnot ⟨hsp, hm, by omega⟩
  · rintro ⟨hsp, hm, hout⟩ h
    have := h hsp hm
    omega

/-- Settles O29: the fields against their table, then the checks on the axis in order. -/
theorem configAxisOutcome : Obligations.ConfigAxisOutcome := by
  refine ⟨readConfig_checks, fun s f n hf hb hn => ?_⟩
  rw [exec_configAxis hf, configAxis_eq hb hn]
  refine ⟨fun hstate => ?_, fun e hstate hread => ?_, fun c hstate hread => ?_⟩
  · rw [decide_eq_false hstate]
    rfl
  · rw [decide_eq_true hstate, hread]
    rfl
  rw [decide_eq_true hstate, hread, require_true, verdict_ok_bind, verdict_ok_bind]
  dsimp only
  rw [← methodFitsSource_eq_false_iff, Bool.not_eq_false, ← sumFits_eq_false_iff, Bool.not_eq_false]
  refine ⟨fun hm => ?_, fun hm hsum => ?_, fun hm hsum hspan => ?_, fun hm hsum hspan hquota hfull => ?_,
    fun hm hsum hspan hquota => ?_⟩
  · rw [hm]
    obtain h | h := methodCheckPlace_eq <;> rw [h]
    · exact ⟨4, .inl rfl, rfl⟩
    · exact ⟨10, .inr rfl, rfl⟩
  · rw [hm, hsum]
    obtain h | h := sumCheckPlace_eq <;> rw [h]
    · exact ⟨11, .inl rfl, rfl⟩
    · exact ⟨15, .inr rfl, rfl⟩
  · rw [hm, hsum, decide_eq_false (by tauto)]
    rfl
  · have hbeq : (c.quota == 0) = false := beq_false_of_ne hquota
    rw [hm, hsum, decide_eq_true (by tauto), hbeq, decide_eq_false (by omega)]
    rfl
  · have hroom : (c.quota == 0 || decide (s.store.occupancy[n] ≤ c.quota)) = true := by
      rw [Bool.or_eq_true, beq_iff_eq, decide_eq_true_iff]
      exact hquota
    rw [hm, hsum, decide_eq_true (by tauto), hroom]
    rfl

/-! ### UNPARK_AXIS -/

theorem unparkAxis_eq (hb : batchFlag f = false) (hn : u8 f 3 = n.val) :
    unparkAxis f s =
      (require (decide (s.axes[n].state = .parked)) (refuse .wrongState) >>= fun _ => .ok (axisReply .done n (unpark n s))) := by
  simp only [unparkAxis, namedAxis_of_clear hb hn, verdict_ok_bind, verdict_pure]

/-- The axis with its front end started and WARN clear (R50, R75). -/
def startedAxis (now : Nat) (a : Axis) : Axis :=
  { startFrontEnd now a with warn := false }

theorem config_startedAxis (now : Nat) (a : Axis) : (startedAxis now a).config = a.config :=
  config_startFrontEnd now a

theorem unpark_of_none (hm : s.axes[n].config.method = .none) {b : Axis} (hstarted : startedAxis s.now s.axes[n] = b) :
    unpark n s =
      withAxisEntry n { s.store.axisNotices[n] with referenced := true }
        (setAxis n
          { b with
            state := .tracking
            seeking := false
            position := reduce s.axes[n].config.span (s.axes[n].config.refValue + s.axes[n].config.offset) } s) := by
  have hconfig : b.config = s.axes[n].config := hstarted ▸ config_startedAxis _ _
  have hunpark : unpark n s = reference n (b.config.refValue + b.config.offset) (setAxis n b s) := by
    subst hstarted
    unfold unpark
    dsimp only
    split
    next => rfl
    all_goals
      next h =>
        rw [config_startFrontEnd, hm] at h
        cases h
  rw [hunpark, reference_eq (axes_setAxis_self n b s), setAxis_setAxis, hconfig]
  rfl

theorem unpark_of_ne_none (hm : s.axes[n].config.method ≠ .none) {b : Axis} (hstarted : startedAxis s.now s.axes[n] = b) :
    unpark n s = setAxis n { b with state := .unreferenced, seeking := false, position := 0 } s := by
  subst hstarted
  unfold unpark
  dsimp only
  split
  next h =>
    rw [config_startFrontEnd] at h
    exact absurd h hm
  all_goals rfl

theorem startedAxis_eq (now : Nat) (a : Axis) :
    startedAxis now a =
      match a.config.source with
      | .quad => { a with warn := false, decoderRunning := true, lastPair := (a.xa, a.xb) }
      | .link => { a with warn := false, failures := 0, sampleNext := some (now + 10 * a.config.samplePeriod) }
      | .host => { a with warn := false } := by
  unfold startedAxis startFrontEnd
  cases a.config.source <;> rfl

/-- Settles O30, by the reference method. -/
theorem unparkAxisOutcome : Obligations.UnparkAxisOutcome := by
  intro s f n hf hb hn a c started
  have hstarted : startedAxis s.now s.axes[n] = started := startedAxis_eq s.now s.axes[n]
  rw [exec_unparkAxis hf, unparkAxis_eq hb hn]
  clear_value started
  refine ⟨fun hstate => ?_, fun hstate hm => ?_, fun hstate hm => ?_⟩
  · rw [decide_eq_false hstate]
    rfl
  · rw [decide_eq_true hstate, require_true, verdict_ok_bind, unpark_of_none hm hstarted, answer_axisReply_entry]
    rfl
  · rw [decide_eq_true hstate, require_true, verdict_ok_bind, unpark_of_ne_none hm hstarted,
      answer_axisReply_setAxis]
    rfl

/-! ### ESTABLISH_AXIS, RESUME_AXIS and PARK_AXIS -/

theorem establishAxis_of_host (hb : batchFlag f = false) (hn : u8 f 3 = n.val) (hstate : s.axes[n].state = .unreferenced)
    (hm : s.axes[n].config.method = .host) :
    establishAxis f s =
      (require (!isRangeFault s.axes[n].config.span (i32 f 4 + s.axes[n].config.offset)) (badField 4 7) >>= fun _ =>
        .ok (axisReply .done n (reference n (i32 f 4 + s.axes[n].config.offset) s))) := by
  simp only [establishAxis, namedAxis_of_clear hb hn, verdict_ok_bind, verdict_pure, hstate, decide_true, require_true, hm]

theorem establishAxis_of_seeking (hb : batchFlag f = false) (hn : u8 f 3 = n.val) (hstate : s.axes[n].state = .unreferenced)
    (hm : s.axes[n].config.method = .index ∨ s.axes[n].config.method = .absolute) :
    establishAxis f s = .ok (axisReply .accepted n (setAxis n { s.axes[n] with seeking := true } s)) := by
  rcases hm with hm | hm <;>
    simp only [establishAxis, namedAxis_of_clear hb hn, verdict_ok_bind, verdict_pure, hstate, decide_true, require_true, hm]

theorem establishAxis_of_state (hb : batchFlag f = false) (hn : u8 f 3 = n.val) (hstate : s.axes[n].state ≠ .unreferenced) :
    establishAxis f s = .error (refuse .wrongState) := by
  simp only [establishAxis, namedAxis_of_clear hb hn, verdict_ok_bind, decide_eq_false hstate, require_false,
    verdict_error_bind]

theorem resumeAxis_eq (hb : batchFlag f = false) (hn : u8 f 3 = n.val) :
    resumeAxis f s =
      (require (decide (s.axes[n].state = .suspect)) (refuse .wrongState) >>= fun _ =>
        .ok (axisReply .done n (setAxis n { s.axes[n] with state := .tracking } s))) := by
  simp only [resumeAxis, namedAxis_of_clear hb hn, verdict_ok_bind, verdict_pure]

theorem parkAxis_eq (hb : batchFlag f = false) (hn : u8 f 3 = n.val) :
    parkAxis f s =
      .ok (axisReply .done n (if s.axes[n].state = .parked then s else setAxis n (parked s.axes[n]) s)) := by
  simp only [parkAxis, namedAxis_of_clear hb hn, verdict_ok_bind, verdict_pure]

/-- Settles O31, row by row. -/
theorem establishResumeAndParkAxisOutcome : Obligations.EstablishResumeAndParkAxisOutcome := by
  intro s f n code hf hb hn a v
  refine ⟨?_, ?_, ?_, ?_, ?_, ?_, ?_, ?_⟩
  · rintro rfl hstate
    rw [exec_establishAxis hf, establishAxis_of_state hb hn hstate]
    rfl
  · rintro rfl hstate hm
    rw [exec_establishAxis hf, establishAxis_of_seeking hb hn hstate hm, answer_axisReply_setAxis]
    exact congrArg (fun x => Host.Outcome.next (answered f .accepted (be8 (axisStateCode x) ++ be32 a.position)
      (setAxis n { a with seeking := true } s))) hstate
  · rintro rfl hstate hm hsp hout
    rw [exec_establishAxis hf, establishAxis_of_host hb hn hstate hm, (isRangeFault_iff _ _).2 ⟨hsp, hout⟩]
    rfl
  · rintro rfl hstate hm hin
    have hfault : isRangeFault s.axes[n].config.span v = false := by
      rw [isRangeFault_eq_false_iff]
      rintro ⟨hsp, hout⟩
      have := hin hsp
      omega
    rw [exec_establishAxis hf, establishAxis_of_host hb hn hstate hm, hfault, Bool.not_false, require_true, verdict_ok_bind,
      reference_eq rfl, answer_axisReply_entry]
    rfl
  · rintro rfl hstate
    rw [exec_resumeAxis hf, resumeAxis_eq hb hn, decide_eq_false hstate]
    rfl
  · rintro rfl hstate
    rw [exec_resumeAxis hf, resumeAxis_eq hb hn, decide_eq_true hstate, require_true, verdict_ok_bind,
      answer_axisReply_setAxis]
    rfl
  · rintro rfl hstate
    rw [exec_parkAxis hf, parkAxis_eq hb hn, if_pos hstate, answer_axisReply rfl]
    exact congrArg (fun x => Host.Outcome.next (answered f .done (be8 (axisStateCode x) ++ be32 a.position) s)) hstate
  · rintro rfl hstate
    rw [exec_parkAxis hf, parkAxis_eq hb hn, if_neg hstate, answer_axisReply_setAxis]
    rfl

/-! ### POST_POSITION -/

theorem postPosition_eq (hb : batchFlag f = false) (hn : u8 f 3 = n.val) :
    postPosition f s =
      (require (decide (s.axes[n].config.source = .host)) (refuse .wrongSource) >>= fun _ =>
        require (decide (s.axes[n].state ≠ .parked)) (refuse .wrongState) >>= fun _ =>
        fieldOr 4 7 (positionIn s.axes[n].config.span (i32 f 4)) >>= fun v => .ok (axisReply .done n (candidate n v s))) := by
  simp only [postPosition, namedAxis_of_clear hb hn, verdict_ok_bind, verdict_pure]

/-- A posted sample in range reaches the tracker. -/
theorem exec_postPosition_of_inRange (hf : InProgress s f 21) (hb : batchFlag f = false) (hn : u8 f 3 = n.val)
    (hsource : s.axes[n].config.source = .host) (hstate : s.axes[n].state ≠ .parked)
    (hin : inRange s.axes[n].config.span (i32 f 4) = true) :
    exec .postPosition s = .next (answer f (.ok (axisReply .done n (candidate n (i32 f 4) s))) s) := by
  rw [exec_postPosition hf, postPosition_eq hb hn, decide_eq_true hsource, decide_eq_true hstate, positionIn, if_pos hin]
  rfl

/-- Settles O32: the checks in order, then the tracker by its state. -/
theorem postPositionOutcome : Obligations.PostPositionOutcome := by
  intro s f n hf hb hn a v
  refine ⟨fun hsource => ?_, fun hsource hstate => ?_, fun hsource hstate m hm hout => ?_, fun hsource hrotary => ?_⟩
  · rw [exec_postPosition hf, postPosition_eq hb hn, decide_eq_false hsource]
    rfl
  · rw [exec_postPosition hf, postPosition_eq hb hn, decide_eq_true hsource, decide_eq_false (not_not.2 hstate)]
    rfl
  · have hnone : positionIn s.axes[n].config.span (i32 f 4) = none := by
      rw [positionIn_eq_none_iff, not_inRange_i32_iff]
      exact ⟨m, hm, hout⟩
    rw [exec_postPosition hf, postPosition_eq hb hn, decide_eq_true hsource, decide_eq_true hstate, hnone]
    rfl
  have hin : inRange s.axes[n].config.span v = true := by
    rw [← Bool.not_eq_false, not_inRange_i32_iff]
    rintro ⟨m, hm, hout⟩
    have := hrotary m hm
    omega
  have hfault := isRangeFault_of_inRange hin
  have hreduce := reduce_of_inRange hin
  have hexec (hstate : s.axes[n].state ≠ .parked) := exec_postPosition_of_inRange hf hb hn hsource hstate hin
  refine ⟨fun hstate => ?_, fun hstate hguard => ?_, fun hstate h0 hguard => ?_⟩
  · have hacts : acts a.state = true ∧ a.state ≠ .tracking ∧ a.state ≠ .parked := by
      rcases hstate with h | h <;> rw [h] <;> decide
    rw [hexec hacts.2.2, candidate_of_untracked (a := a) rfl hacts.1 hacts.2.1 hfault, hreduce,
      answer_axisReply_setAxis]
  · have hadmits : guardAdmits a.config a.position (reduce a.config.span v) = true := by
      rw [hreduce, guardAdmits_iff]
      exact hguard
    rw [hexec (by rw [hstate]; decide), candidate_of_update (a := a) rfl hstate hfault hadmits, hreduce,
      answer_axisReply (a := { a with position := v }) (by rw [axes_positionUpdate, getElem_put_self])]
    exact congrArg (fun x => Host.Outcome.next (answered f .done (be8 (axisStateCode x) ++ be32 v) (positionUpdate n v s))) hstate
  · have hrefuses : guardAdmits a.config a.position (reduce a.config.span v) = false := by
      rw [hreduce, ← Bool.not_eq_true, guardAdmits_iff]
      omega
    rw [hexec (by rw [hstate]; decide), candidate_of_slew (a := a) rfl hstate hfault hrefuses, hreduce,
      becomeSuspect_eq (a := a) rfl, answer_axisReply_entry]
    rfl

end Requests

end Sys2Proof.Machine
end

section
/-! The source events of an axis whose tracker acts: quadrature edges and the ends of polls (O33, O36, O37). -/

namespace Sys2Proof.Machine

/-! ### Quadrature edges -/

/-- The pair one step further along the cycle 00, 10, 11, 01 (R51). -/
def alongCycle (p : Level × Level) : Level × Level :=
  (if p.2 = .low then .high else .low, p.1)

theorem quadResult_self (p : Level × Level) : quadResult p p = .unchanged := by
  rcases p with ⟨_ | _, _ | _⟩ <;> rfl

theorem quadResult_along (p : Level × Level) : quadResult p (alongCycle p) = .forward := by
  rcases p with ⟨_ | _, _ | _⟩ <;> rfl

theorem quadResult_against (p : Level × Level) : quadResult (alongCycle p) p = .backward := by
  rcases p with ⟨_ | _, _ | _⟩ <;> rfl

theorem quadResult_both {p q : Level × Level} (ha : q.1 ≠ p.1) (hb : q.2 ≠ p.2) : quadResult p q = .error := by
  revert ha hb
  rcases p with ⟨_ | _, _ | _⟩ <;> rcases q with ⟨_ | _, _ | _⟩ <;> decide

/-- A step of one count is a travel of at most one count. -/
theorem natAbs_signedTravel_step (sp : Span) (p : Int) {e : Int} (he : e = 1 ∨ e = -1) :
    (signedTravel sp p (reduce sp (p + e))).natAbs ≤ 1 := by
  cases sp with
  | linear =>
    change (p + e - p).natAbs ≤ 1
    omega
  | rotary m =>
    have hdiff : ((p + e) % m - p) % m = e % m := by
      rw [Int.emod_def (p + e) m, show p + e - m * ((p + e) / m) - p = e + m * -((p + e) / m) by ring,
        Int.add_mul_emod_self_left]
    simp only [signedTravel, reduce, hdiff]
    obtain rfl | hm | hm : m = 0 ∨ m = 1 ∨ 2 ≤ m := by omega
    · rcases he with rfl | rfl <;> simp
    · subst hm
      simp
    · rcases he with rfl | rfl
      · rw [Int.emod_eq_of_lt (by omega) (by omega), if_neg (by omega)]
        decide
      · have hmod : (-1 : Int) % m = m - 1 := by
          rw [← Int.add_emod_right, Int.emod_eq_of_lt (by omega) (by omega)]
          ring
        rw [hmod]
        split <;> omega

/-- The slew guard lets a single step pass (R79). -/
theorem guardAdmits_step (c : AxisConfig) (p : Int) {e : Int} (he : e = 1 ∨ e = -1) :
    guardAdmits c p (reduce c.span (p + e)) = true := by
  have := natAbs_signedTravel_step c.span p he
  rw [guardAdmits_iff]
  omega

theorem not_acts_iff (x : AxisState) : acts x = false ↔ x = .parked ∨ x = .faulted := by
  cases x <;> simp [acts]

/-- A step of one count at the tracker (R52, R78, R80). -/
theorem candidate_step {n : AxisNo} {s : State} {a : Axis} (ha : s.axes[n] = a) {p e : Int} (he : e = 1 ∨ e = -1)
    (hp : p = a.position + e) :
    candidate n p s =
      if a.state = .parked ∨ a.state = .faulted then s
      else if a.config.span = .linear ∧ (p < -2147483648 ∨ 2147483647 < p) then
        withAxisEntry n { s.store.axisNotices[n] with faulted := some (s.store.axisNotices[n].faulted.getD .range) }
          (setAxis n { a with state := .faulted, seeking := false, lastCause := .range } s)
      else if a.state = .tracking then positionUpdate n (reduce a.config.span p) s
      else setAxis n { a with position := reduce a.config.span p } s := by
  cases hacts : acts a.state with
  | false =>
    rw [if_pos ((not_acts_iff _).1 hacts)]
    exact candidate_of_not_acts (by rw [ha, hacts]) p
  | true =>
    rw [if_neg (by rw [← not_acts_iff, hacts]; decide)]
    cases hfault : isRangeFault a.config.span p with
    | true =>
      rw [if_pos ((isRangeFault_iff _ _).1 hfault), candidate_of_fault ha hacts hfault, becomeFaulted_eq ha]
    | false =>
      rw [if_neg ((isRangeFault_eq_false_iff _ _).1 hfault)]
      split
      next hstate =>
        exact candidate_of_update ha hstate hfault (hp ▸ guardAdmits_step a.config a.position he)
      next hstate => exact candidate_of_untracked ha hacts hstate hfault

section QuadEdge

variable {s : State} {n : AxisNo} {a b : Level}

/-- The axis once the pair of a running decoder has been sampled (R51). -/
def pairSeen (a b : Level) (x : Axis) : Axis :=
  { x with xa := a, xb := b, lastPair := (a, b) }

/-- What the tracker does on each result of the decoder's table (R52, R81). -/
def quadActs (n : AxisNo) (s : State) : QuadResult → State
  | .unchanged => s
  | .forward => countStep n true s
  | .backward => countStep n false s
  | .error => decodeError n s

theorem execQuadEdge_of_running (hreset : s.resetLow = false) (hrun : s.axes[n].decoderRunning = true) :
    exec (.quadEdge n a b) s =
      .next (quadActs n (setAxis n (pairSeen a b s.axes[n]) s) (quadResult s.axes[n].lastPair (a, b))) := by
  have hruns : ¬ (s.resetLow = true ∨ s.axes[n].decoderRunning = false) := by
    rw [hreset, hrun]
    decide
  change execQuadEdge n a b s = _
  unfold execQuadEdge
  dsimp only
  rw [if_neg hruns]
  cases quadResult s.axes[n].lastPair (a, b) <;> rfl

/-- A step is one count forward or, turned by count invert, one back (R52). -/
theorem countStep_eq {x : Axis} (hx : s.axes[n] = x) (forward : Bool) :
    countStep n forward s = candidate n (if forward = x.config.countInvert then x.position - 1 else x.position + 1) s := by
  subst hx; rfl

theorem decodeError_eq {x : Axis} (hx : s.axes[n] = x) :
    decodeError n s =
      if x.state = .tracking then
        withAxisEntry n { s.store.axisNotices[n] with suspect := some (s.store.axisNotices[n].suspect.getD .decode) }
          (setAxis n { x with state := .suspect, lastCause := .decode } s)
      else s := by
  subst hx
  unfold decodeError
  split
  · rw [becomeSuspect_eq rfl]
  · rfl

end QuadEdge

/-- Settles O33: the decoder's table, then the tracker by its state. -/
theorem quadEdgeResolvesOneChange : Obligations.QuadEdgeResolvesOneChange := by
  refine ⟨fun s n a b hstopped => ?_, ?_⟩
  · change execQuadEdge n a b s = _
    simp only [execQuadEdge, hstopped, or_true, if_true]
  intro s n a b hreset hrun x seen along sp faulted stepTo
  have hseen : seen.axes[n] = pairSeen a b x := axes_setAxis_self n _ s
  have hstore : seen.store = s.store := rfl
  have hexec (r : QuadResult) (hr : quadResult x.lastPair (a, b) = r) :
      exec (.quadEdge n a b) s = .next (quadActs n seen r) := by
    rw [← hr, execQuadEdge_of_running hreset hrun]
    rfl
  clear_value seen
  have hcount (forward : Bool) : countStep n forward seen =
      stepTo (if forward = x.config.countInvert then x.position - 1 else x.position + 1) := by
    have hp : (if forward = x.config.countInvert then x.position - 1 else x.position + 1) =
        (pairSeen a b x).position + if forward = x.config.countInvert then -1 else 1 := by
      split <;> rfl
    have he : (if forward = x.config.countInvert then (-1 : Int) else 1) = 1 ∨
        (if forward = x.config.countInvert then (-1 : Int) else 1) = -1 := by
      split
      · exact .inr rfl
      · exact .inl rfl
    refine (countStep_eq hseen forward).trans ((candidate_step hseen he hp).trans ?_)
    simp only [stepTo, faulted, hseen, hstore]
    rfl
  refine ⟨fun hpair => ?_, fun hpair => ?_, fun hpair => ?_, fun hxa hxb => ?_⟩
  · exact hexec .unchanged (by rw [hpair, quadResult_self])
  · have hforward : quadResult x.lastPair (a, b) = .forward := by
      rw [hpair]
      exact quadResult_along x.lastPair
    rw [hexec .forward hforward, quadActs, hcount]
    cases x.config.countInvert <;> rfl
  · have hbackward : quadResult x.lastPair (a, b) = .backward := by
      rw [hpair]
      exact quadResult_against (a, b)
    rw [hexec .backward hbackward, quadActs, hcount]
    cases x.config.countInvert <;> rfl
  · rw [hexec .error (quadResult_both hxa hxb), quadActs, decodeError_eq hseen, hstore, hseen]
    rfl

end Sys2Proof.Machine
end

section
/-! The ends of polls (O36, O37). -/

namespace Sys2Proof.Machine

/-! ### The judgement of a reply (R59 to R61) -/

theorem takeWhile_zeros (zeros : Nat) (rest : List Bool) :
    (List.replicate zeros false ++ true :: rest).takeWhile (fun b => decide (b = false)) = List.replicate zeros false := by
  rw [List.takeWhile_append_of_pos fun b hb => by simp [List.eq_of_mem_replicate hb]]
  simp

/-- After the sync bit the reply is judged by its second sync bit and its length. -/
theorem judgeReply_of_sync {w zeros : Nat} (hz : zeros < 120) (rest : List Bool) :
    judgeReply w (List.replicate zeros false ++ true :: rest) =
      match rest with
      | [] => none
      | true :: _ => some .bad
      | false :: body => if body.length < w + 10 then none else some (judgeBody w body) := by
  have hlt : ¬ Config.syncSearchBits ≤ zeros := Nat.not_le.2 hz
  simp only [judgeReply, takeWhile_zeros, List.length_replicate, if_neg hlt]
  rw [List.drop_append, List.drop_eq_nil_of_le (by simp), List.length_replicate, Nat.add_sub_cancel_left]
  rfl

theorem judgeReply_of_timeout (w : Nat) : judgeReply w (List.replicate 120 false) = some .bad := by
  have htake : (List.replicate 120 false).takeWhile (fun b => decide (b = false)) = List.replicate 120 false :=
    List.takeWhile_eq_self_iff.2 fun b hb => by simp [List.eq_of_mem_replicate hb]
  simp only [judgeReply, htake, List.length_replicate]
  rfl

theorem judgeReply_of_second_sync {w zeros : Nat} (hz : zeros < 120) :
    judgeReply w (List.replicate zeros false ++ [true, true]) = some .bad :=
  judgeReply_of_sync hz [true]

/-- A full reply is judged by its check, and then by its ALARM bit (R60, R61). -/
theorem judgeBody_eq {w : Nat} {word check : List Bool} (hword : word.length = w) (hcheck : check.length = 8)
    (alarm warn : Bool) :
    judgeBody w (word ++ [alarm, warn] ++ check) =
      if check = byteBits (crc8 (word ++ [alarm, warn])) then
        if alarm then .alarm else .good (bitsToNat word) warn
      else .bad := by
  have hlen : (word ++ [alarm, warn]).length = w + 2 := by simp [hword]
  have hdrop : ((word ++ [alarm, warn] ++ check).drop (w + 2)).take 8 = check := by
    rw [List.drop_left' hlen, List.take_of_length_le (Nat.le_of_eq hcheck)]
  have htake : (word ++ [alarm, warn] ++ check).take (w + 2) = word ++ [alarm, warn] := List.take_left' hlen
  have hbody : (word ++ [alarm, warn] ++ check).take w = word := by
    rw [List.append_assoc, List.take_left' hword]
  have halarm : (word ++ [alarm, warn] ++ check).getD w false = alarm := by
    rw [List.append_assoc, List.getD_append_right _ _ _ _ (by omega), hword, Nat.sub_self]
    rfl
  have hwarn : (word ++ [alarm, warn] ++ check).getD (w + 1) false = warn := by
    rw [List.append_assoc, List.getD_append_right _ _ _ _ (by omega), hword, Nat.add_sub_cancel_left]
    rfl
  rw [judgeBody, hdrop, htake, hbody, halarm, hwarn]

theorem judgeReply_full {w zeros : Nat} (hz : zeros < 120) {word check : List Bool} (hword : word.length = w)
    (hcheck : check.length = 8) (alarm warn : Bool) :
    judgeReply w (List.replicate zeros false ++ [true, false] ++ word ++ [alarm, warn] ++ check) =
      some (if check = byteBits (crc8 (word ++ [alarm, warn])) then
        if alarm then .alarm else .good (bitsToNat word) warn
      else .bad) := by
  have hshape : List.replicate zeros false ++ [true, false] ++ word ++ [alarm, warn] ++ check =
      List.replicate zeros false ++ true :: false :: (word ++ [alarm, warn] ++ check) := by simp
  have hlen : ¬ (word ++ [alarm, warn] ++ check).length < w + 10 := by
    simp only [List.length_append, hword, hcheck, List.length_cons, List.length_nil]
    omega
  rw [hshape, judgeReply_of_sync hz, ← judgeBody_eq hword hcheck]
  exact if_neg hlen

/-! ### The end of a poll at the receiver and the tracker -/

section Polls

variable {s : State} {n : AxisNo} {bits reply : List Bool}

theorem exec_pollEnd (hreset : s.resetLow = false) (hpoll : s.axes[n].poll = some bits) {o : PollOutcome}
    (hjudge : judgeReply s.axes[n].config.wordWidth (bits ++ reply) = some o) :
    exec (.pollEnd n reply) s = .next (endPoll n o s) := by
  change execPollEnd n reply s = _
  simp only [execPollEnd, hpoll, hreset, Bool.false_eq_true, if_false, hjudge]

theorem exec_pollTimeout (hreset : s.resetLow = false) (hpoll : s.axes[n].poll = some bits) (hbits : ∀ b ∈ bits, b = false) :
    exec (.pollTimeout n) s = .next (endPoll n .bad s) := by
  have hany : ¬ (s.resetLow = true ∨ bits.any (fun b => decide (b = true)) = true) := by
    rw [hreset, List.any_eq_true]
    rintro (h | ⟨b, hb, h⟩)
    · cases h
    · rw [hbits b hb] at h
      cases h
  change execPollTimeout n s = _
  simp only [execPollTimeout, hpoll]
  exact if_neg hany

/-- A fault of the link at a receiver that has ended its poll (R63, R64, R82). -/
theorem linkFault_ended {a : Axis} (hacts : acts a.state = true) (c : Cause) :
    linkFault n c (setAxis n a s) =
      withAxisEntry n { s.store.axisNotices[n] with faulted := some (s.store.axisNotices[n].faulted.getD c) }
        (setAxis n { a with state := .faulted, seeking := false, lastCause := c } s) := by
  rw [linkFault_of_acts (axes_setAxis_self n a s) hacts, becomeFaulted_eq (axes_setAxis_self n a s), setAxis_setAxis]
  rfl

theorem endPoll_bad (hacts : acts s.axes[n].state = true) :
    endPoll n .bad s =
      if s.axes[n].failures + 1 = s.axes[n].config.failureLimit then
        withAxisEntry n { s.store.axisNotices[n] with faulted := some (s.store.axisNotices[n].faulted.getD .link) }
          (setAxis n
            { s.axes[n] with state := .faulted, seeking := false, lastCause := .link, poll := none, failures := 0 } s)
      else setAxis n { s.axes[n] with poll := none, failures := s.axes[n].failures + 1 } s := by
  unfold endPoll badOutcome
  dsimp only
  rw [linkFault_ended (a := { s.axes[n] with poll := none, failures := 0 }) hacts]

theorem endPoll_alarm (hacts : acts s.axes[n].state = true) :
    endPoll n .alarm s =
      withAxisEntry n { s.store.axisNotices[n] with faulted := some (s.store.axisNotices[n].faulted.getD .encoder) }
        (setAxis n
          { s.axes[n] with
            state := .faulted
            seeking := false
            lastCause := .encoder
            poll := none
            failures := s.axes[n].failures } s) :=
  linkFault_ended (a := { s.axes[n] with poll := none }) hacts .encoder

end Polls

/-- Settles O36: each reply by its judgement, and each outcome at the receiver. -/
theorem pollEndsBadOrAlarm : Obligations.PollEndsBadOrAlarm := by
  intro s n bits reply hreset hpoll hstate a w faulted bad
  have hacts : acts s.axes[n].state = true := (acts_iff _).2 hstate
  have hbad : endPoll n .bad s = bad := endPoll_bad hacts
  have hend {o : PollOutcome} (hjudge : judgeReply w (bits ++ reply) = some o) :
      exec (.pollEnd n reply) s = .next (endPoll n o s) := exec_pollEnd hreset hpoll hjudge
  refine ⟨fun hbits => ?_, fun hreply => ?_, fun zeros hz => ⟨fun hreply => ?_,
    fun word alarm warn check hword hcheck hreply => ?_⟩⟩
  · rw [exec_pollTimeout hreset hpoll hbits, hbad]
  · rw [hend (hreply ▸ judgeReply_of_timeout w), hbad]
  · rw [hend (hreply ▸ judgeReply_of_second_sync hz), hbad]
  · have hjudge := hend (hreply ▸ judgeReply_full hz hword hcheck alarm warn)
    refine ⟨fun hfails => ?_, fun hpasses halarm => ?_⟩
    · rw [hjudge, if_neg hfails, hbad]
    · rw [hjudge, if_pos hpasses, if_pos halarm, endPoll_alarm hacts]

/-! ### A GOOD outcome (R62, R77 to R80, R85) -/

section Good

variable {s : State} {n : AxisNo} {a : Axis} {raw : Nat} {warn : Bool}

theorem goodSample_of_fault (ha : s.axes[n] = a) (hacts : acts a.state = true)
    (hfault : isRangeFault a.config.span (raw + a.config.offset) = true) :
    goodSample n raw warn s = becomeFaulted n .range s := by
  subst ha
  simp only [goodSample, hacts, hfault, Bool.not_true, Bool.false_eq_true, if_false, if_true]

theorem goodSample_of_reference (ha : s.axes[n] = a) (hacts : acts a.state = true)
    (hfault : isRangeFault a.config.span (raw + a.config.offset) = false)
    (hseeks : a.state = .unreferenced ∧ a.seeking = true ∧ a.config.method = .absolute) :
    goodSample n raw warn s = reference n (raw + a.config.offset) (setAxis n { a with warn := warn } s) := by
  subst ha
  unfold goodSample
  dsimp only
  rw [hacts, hfault, if_pos hseeks]
  rfl

theorem goodSample_of_candidate (ha : s.axes[n] = a) (hacts : acts a.state = true)
    (hfault : isRangeFault a.config.span (raw + a.config.offset) = false)
    (hseeks : ¬ (a.state = .unreferenced ∧ a.seeking = true ∧ a.config.method = .absolute)) :
    goodSample n raw warn s = candidate n (raw + a.config.offset) (setAxis n { a with warn := warn } s) := by
  subst ha
  unfold goodSample
  dsimp only
  rw [hacts, hfault, if_neg hseeks]
  rfl

end Good

/-- Settles O37: a GOOD sample at the tracker by its state. -/
theorem pollEndsGood : Obligations.PollEndsGood := by
  intro s n bits reply zeros word warn hreset hpoll hstate hz hword hreply a sp exact p outOfRange referenced admitted ended
    sampled
  have hacts : acts a.state = true := (acts_iff _).2 hstate
  have hended : (setAxis n ended s).axes[n] = ended := axes_setAxis_self n ended s
  have hsampled : (setAxis n sampled (setAxis n ended s)).axes[n] = sampled := axes_setAxis_self n sampled _
  have hexec : exec (.pollEnd n reply) s = .next (goodSample n (bitsToNat word) warn (setAxis n ended s)) := by
    refine exec_pollEnd (o := .good (bitsToNat word) warn) hreset hpoll ?_
    rw [hreply, judgeReply_full hz hword (by simp [byteBits]), if_pos rfl]
    rfl
  have hfault (h : ¬ outOfRange) : isRangeFault sp exact = false := (isRangeFault_eq_false_iff _ _).2 h
  have hseeks (htracking : a.state = .tracking) : ¬ referenced := fun h => by
    rw [h.1] at htracking
    cases htracking
  rw [hexec]
  refine ⟨fun hout => ?_, fun hin href => ?_, fun hin href huntracked => ?_, fun hin htracking hadmitted => ?_,
    fun hin htracking hadmitted => ?_⟩
  · rw [goodSample_of_fault hended hacts ((isRangeFault_iff _ _).2 hout), becomeFaulted_eq hended, setAxis_setAxis]
    rfl
  · rw [goodSample_of_reference hended hacts (hfault hin) href, reference_eq hsampled, setAxis_setAxis, setAxis_setAxis]
    rfl
  · rw [goodSample_of_candidate hended hacts (hfault hin) href, candidate_of_untracked hsampled hacts huntracked (hfault hin),
      setAxis_setAxis, setAxis_setAxis]
  · rw [goodSample_of_candidate hended hacts (hfault hin) (hseeks htracking),
      candidate_of_update hsampled htracking (hfault hin) ((guardAdmits_iff _ _ _).2 hadmitted), setAxis_setAxis]
  · have hrefuses : guardAdmits sampled.config sampled.position (reduce sampled.config.span exact) = false := by
      rw [← Bool.not_eq_true, guardAdmits_iff]
      exact hadmitted
    rw [goodSample_of_candidate hended hacts (hfault hin) (hseeks htracking),
      candidate_of_slew hsampled htracking (hfault hin) hrefuses, becomeSuspect_eq hsampled, setAxis_setAxis, setAxis_setAxis]
    rfl

end Sys2Proof.Machine
end

section
/-! The checks that come first in every request, and the record requests that report or set a state (O8, O11, O18, O19). -/

namespace Sys2Proof.Machine

/-! ### The batch flag and the axis number (R154) -/

/-- The row answers the request in progress with code `code` by `claim`. -/
def AnsweredBy (claim : Frame → State → Verdict (State × Reply)) (c : Instr) (code : Nat) : Prop :=
  ∀ s, exec c s = serve (requestOf code s) claim s

theorem AnsweredBy.exec_of_error {claim : Frame → State → Verdict (State × Reply)} {c : Instr} {code : Nat}
    (hrow : AnsweredBy claim c code) {s : State} {f : Frame} (hf : InProgress s f code) {e : Refused}
    (he : claim f s = .error e) : exec c s = .next (answered f e.code e.items s) := by
  rw [hrow, serve_of_some claim s (requestOf_of_inProgress hf), he, answer_error]

/-- The claim begins with the check of the batch flag. -/
def ChecksFlag (claim : Frame → State → Verdict (State × Reply)) : Prop :=
  ∀ f s, ∃ k : Unit → Verdict (State × Reply), claim f s = (noBatchFlag f >>= k)

/-- The claim begins with the checks of the batch flag and of the axis number. -/
def ChecksAxis (claim : Frame → State → Verdict (State × Reply)) : Prop :=
  ∀ f s, ∃ k : AxisNo → Verdict (State × Reply), claim f s = (namedAxis f >>= k)

/-- The row refuses a batch flag. -/
def RefusesFlag (row : Instr × Nat) : Prop :=
  ∀ s f, InProgress s f row.2 → batchFlag f = true → exec row.1 s = .next (answered f .badField (be8 2 ++ be8 0) s)

/-- The row refuses an axis number above 7. -/
def RefusesAxis (row : Instr × Nat) : Prop :=
  ∀ s f, InProgress s f row.2 → batchFlag f = false → 8 ≤ u8 f 3 →
    exec row.1 s = .next (answered f .badField (be8 3 ++ be8 7) s)

section Rows

variable {claim : Frame → State → Verdict (State × Reply)} {c : Instr} {code : Nat} (hrow : AnsweredBy claim c code)
include hrow

theorem refusesFlag_of_checksFlag (h : ChecksFlag claim) : RefusesFlag (c, code) := by
  intro s f hf hb
  obtain ⟨k, hk⟩ := h f s
  exact hrow.exec_of_error hf (e := badField 2 0) (by rw [hk, noBatchFlag_of_set hb, verdict_error_bind])

theorem refusesFlag_of_checksAxis (h : ChecksAxis claim) : RefusesFlag (c, code) := by
  intro s f hf hb
  obtain ⟨k, hk⟩ := h f s
  exact hrow.exec_of_error hf (e := badField 2 0)
    (by rw [hk, namedAxis, noBatchFlag_of_set hb, verdict_error_bind, verdict_error_bind])

theorem refusesAxis_of_checksAxis (h : ChecksAxis claim) : RefusesAxis (c, code) := by
  intro s f hf hb haxis
  obtain ⟨k, hk⟩ := h f s
  refine hrow.exec_of_error hf (e := badField 3 7) ?_
  rw [hk, namedAxis, noBatchFlag_of_clear hb, verdict_ok_bind, axisOperand, finOf_of_le haxis, fieldOr_none, verdict_error_bind]

end Rows

theorem driveLine_refusesFlag : RefusesFlag (.driveLine, 22) := by
  intro s f hf hb
  refine execDriveLine_of_error (e := badField 2 0) hf ?_
  rw [readDrive, noBatchFlag_of_set hb, verdict_error_bind]

/-- The rows of the axis requests, each with the claim that answers it. -/
theorem refusesAxis_rows :
    ∀ row ∈ [(Instr.scanAxis, 7), (.getBracket, 8), (.configAxis, 15), (.unparkAxis, 16), (.establishAxis, 17),
      (.resumeAxis, 18), (.parkAxis, 19), (.axisStatus, 20), (.postPosition, 21)], RefusesAxis row ∧ RefusesFlag row := by
  have row {claim : Frame → State → Verdict (State × Reply)} {c : Instr} {code : Nat} (hrow : AnsweredBy claim c code)
      (h : ChecksAxis claim) : RefusesAxis (c, code) ∧ RefusesFlag (c, code) :=
    ⟨refusesAxis_of_checksAxis hrow h, refusesFlag_of_checksAxis hrow h⟩
  simp only [List.forall_mem_cons, List.not_mem_nil, false_imp_iff, implies_true, and_true]
  exact ⟨row (claim := scanAxis) (fun _ => rfl) fun _ _ => ⟨_, rfl⟩, row (claim := getBracket) (fun _ => rfl) fun _ _ => ⟨_, rfl⟩,
    row (claim := configAxis) (fun _ => rfl) fun _ _ => ⟨_, rfl⟩, row (claim := unparkAxis) (fun _ => rfl) fun _ _ => ⟨_, rfl⟩,
    row (claim := establishAxis) (fun _ => rfl) fun _ _ => ⟨_, rfl⟩, row (claim := resumeAxis) (fun _ => rfl) fun _ _ => ⟨_, rfl⟩,
    row (claim := parkAxis) (fun _ => rfl) fun _ _ => ⟨_, rfl⟩, row (claim := axisStatus) (fun _ => rfl) fun _ _ => ⟨_, rfl⟩,
    row (claim := postPosition) (fun _ => rfl) fun _ _ => ⟨_, rfl⟩⟩

/-- The rows that carry no axis number and check the batch flag first. -/
theorem refusesFlag_rows :
    ∀ row ∈ [(Instr.queryTrip, 6), (.wipeStore, 9), (.readNotices, 10), (.ackNotices, 11), (.openBatch, 12), (.commitBatch, 13),
      (.discardBatch, 14), (.driveLine, 22), (.configLine, 23), (.lineStatus, 24)], RefusesFlag row := by
  simp only [List.forall_mem_cons, List.not_mem_nil, false_imp_iff, implies_true, and_true]
  exact ⟨refusesFlag_of_checksFlag (claim := queryTrip) (fun _ => rfl) fun _ _ => ⟨_, rfl⟩,
    refusesFlag_of_checksFlag (claim := wipeStore) (fun _ => rfl) fun _ _ => ⟨_, rfl⟩,
    refusesFlag_of_checksFlag (claim := readNotices) (fun _ => rfl) fun _ _ => ⟨_, rfl⟩,
    refusesFlag_of_checksFlag (claim := ackNotices) (fun _ => rfl) fun _ _ => ⟨_, rfl⟩,
    refusesFlag_of_checksFlag (claim := openBatch) (fun _ => rfl) fun _ _ => ⟨_, rfl⟩,
    refusesFlag_of_checksFlag (claim := commitBatch) (fun _ => rfl) fun _ _ => ⟨_, rfl⟩,
    refusesFlag_of_checksFlag (claim := discardBatch) (fun _ => rfl) fun _ _ => ⟨_, rfl⟩, driveLine_refusesFlag,
    refusesFlag_of_checksFlag (claim := configLine) (fun _ => rfl) fun _ _ => ⟨_, rfl⟩,
    refusesFlag_of_checksFlag (claim := lineStatus) (fun _ => rfl) fun _ _ => ⟨_, rfl⟩⟩

theorem unknownRequest_of_code {s : State} {f : Frame} (hreset : s.resetLow = false) (hf : s.manager.inProgress = some f)
    (hcode : 25 ≤ u8 f 0) : unknownRequest s = some f := by
  have hout : ¬ (1 ≤ u8 f 0 ∧ u8 f 0 ≤ 24) := by omega
  simp only [unknownRequest, hreset, hf, if_neg hout, Bool.false_eq_true, if_false]

/-- Settles O8: an unknown code has no claim but the refusal, and every other row begins with its check. -/
theorem managerChecksCodeAndBatchFlag : Obligations.ManagerChecksCodeAndBatchFlag := by
  refine ⟨fun s f hreset hf hcode => ?_, fun s f c code hrow hf hb => ?_, fun s f c code hrow hf hb haxis => ?_⟩
  · exact serve_of_some unknownClaim s (unknownRequest_of_code hreset hf hcode)
  · have hrows : (c, code) ∈ [(Instr.scanAxis, 7), (.getBracket, 8), (.configAxis, 15), (.unparkAxis, 16),
          (.establishAxis, 17), (.resumeAxis, 18), (.parkAxis, 19), (.axisStatus, 20), (.postPosition, 21)] ∨
        (c, code) ∈ [(Instr.queryTrip, 6), (.wipeStore, 9), (.readNotices, 10), (.ackNotices, 11), (.openBatch, 12),
          (.commitBatch, 13), (.discardBatch, 14), (.driveLine, 22), (.configLine, 23), (.lineStatus, 24)] := by
      simp only [List.mem_cons, List.not_mem_nil, or_false] at hrow ⊢
      tauto
    rcases hrows with h | h
    · exact (refusesAxis_rows _ h).2 s f hf hb
    · exact refusesFlag_rows _ h s f hf hb
  · exact (refusesAxis_rows _ hrow).1 s f hf hb haxis

/-! ### The target handle of a direct record request (R4) -/

/-- The row answers the record request with code `code`, its batch flag clear, by `claim`. -/
def RecordRow (claim : Frame → State → Verdict (State × Reply)) (c : Instr) (code : Nat) : Prop :=
  ∀ s f, InProgress s f code → batchFlag f = false → exec c s = .next (answer f (claim f s) s)

/-- The claim, its batch flag clear, begins with the resolution of the target handle. -/
def ChecksTarget (claim : Frame → State → Verdict (State × Reply)) : Prop :=
  ∀ f s, batchFlag f = false → ∃ k : Handle × TripRecord → Verdict (State × Reply), claim f s = (target f s.store >>= k)

theorem recordRow_of_serve {claim : Frame → State → Verdict (State × Reply)} {c : Instr} {code : Nat}
    (h : ∀ s, exec c s = serve (recordRequestOf code false s) claim s) : RecordRow claim c code := fun s f hf hb => by
  rw [h, serve_of_some claim s (recordRequestOf_of_inProgress hf hb)]

theorem exec_modifyTrip : RecordRow modifyTrip .modifyTrip 2 := recordRow_of_serve fun _ => rfl

theorem exec_retireTrip : RecordRow retireTrip .retireTrip 3 := recordRow_of_serve fun _ => rfl

theorem exec_holdTrip : RecordRow holdTrip .holdTrip 4 := recordRow_of_serve fun _ => rfl

theorem exec_armTrip : RecordRow armTrip .armTrip 5 := recordRow_of_serve fun _ => rfl

theorem exec_queryTrip : RecordRow queryTrip .queryTrip 6 := fun s _ hf _ =>
  serve_of_some queryTrip s (requestOf_of_inProgress hf)

theorem checksTarget_queryTrip : ChecksTarget queryTrip := fun f s hb =>
  ⟨fun x => .ok (s, ⟨.done, [querySetup x.1 x.2, queryProgress x.1 x.2]⟩), by
    simp only [queryTrip, noBatchFlag_of_clear hb, verdict_ok_bind]
    rfl⟩

theorem resolve_eq_stale {st : Store} {h : Handle} (hs : st.slots[h.slot].content = .free ∨ st.slots[h.slot].gen ≠ h.gen) :
    resolve st h = .error (refuse .stale) := by
  have hgen {c : SlotContent} (hc : st.slots[h.slot].content = c) (hne : c ≠ .free) : ¬ st.slots[h.slot].gen = h.gen :=
    hs.resolve_left fun hfree => hne (hc.symm.trans hfree)
  unfold resolve
  split
  next => rfl
  next hc => rw [if_neg (hgen hc (by simp))]
  next hc => rw [if_neg (hgen hc (by simp))]

theorem resolve_eq_notLive {st : Store} {h : Handle} (hg : st.slots[h.slot].gen = h.gen)
    (hr : ∃ r, st.slots[h.slot].content = .reserved r) : resolve st h = .error (refuse .notLive) := by
  obtain ⟨r, hr⟩ := hr
  simp only [resolve, hr, if_pos hg]

theorem handleAt_of_slot {f : Frame} {k : Nat} {i : SlotNo} (h : u16 f k / 64 = i.val) :
    handleAt f k = some ⟨i, BitVec.ofNat 6 (u16 f k)⟩ :=
  (handleAt_eq_some_iff f k _).2 ⟨h.symm, rfl⟩

theorem target_of_error {f : Frame} {st : Store} {h : Handle} {e : Refused} (hh : handleAt f 3 = some h)
    (he : resolve st h = .error e) : target f st = .error e := by
  rw [target, hh, fieldOr_some, verdict_ok_bind, he, verdict_error_bind]

/-- A row whose claim begins with the resolution of its target is refused by the rows of R4. -/
theorem refuses_target {claim : Frame → State → Verdict (State × Reply)} {c : Instr} {code : Nat} (hrow : RecordRow claim c code)
    (hclaim : ChecksTarget claim) {s : State} {f : Frame} (hf : InProgress s f code) (hb : batchFlag f = false) {e : Refused}
    (he : target f s.store = .error e) : exec c s = .next (answered f e.code e.items s) := by
  obtain ⟨k, hk⟩ := hclaim f s hb
  rw [hrow s f hf hb, hk, he, verdict_error_bind, answer_error]

theorem target_rows :
    ∀ row ∈ [(Instr.modifyTrip, 2), (.retireTrip, 3), (.holdTrip, 4), (.armTrip, 5), (.queryTrip, 6)],
      ∃ claim, RecordRow claim row.1 row.2 ∧ ChecksTarget claim := by
  simp only [List.forall_mem_cons, List.not_mem_nil, false_imp_iff, implies_true, and_true]
  exact ⟨⟨_, exec_modifyTrip, fun _ _ _ => ⟨_, rfl⟩⟩, ⟨_, exec_retireTrip, fun _ _ _ => ⟨_, rfl⟩⟩,
    ⟨_, exec_holdTrip, fun _ _ _ => ⟨_, rfl⟩⟩, ⟨_, exec_armTrip, fun _ _ _ => ⟨_, rfl⟩⟩,
    ⟨_, exec_queryTrip, checksTarget_queryTrip⟩⟩

/-- Settles O11: every row that carries a target resolves it first. -/
theorem targetHandleIsResolvedFirst : Obligations.TargetHandleIsResolvedFirst := by
  intro s f c code hmem hf hb
  obtain ⟨claim, hrow, hclaim⟩ := target_rows _ hmem
  refine ⟨fun hslot => ?_, fun i hi => ⟨fun hstale => ?_, fun hg hres => ?_⟩⟩
  · refine refuses_target hrow hclaim hf hb (e := badField 3 7) ?_
    rw [target, (handleAt_eq_none_iff f 3).2 hslot, fieldOr_none, verdict_error_bind]
  · exact refuses_target hrow hclaim hf hb (target_of_error (handleAt_of_slot hi) (resolve_eq_stale hstale))
  · exact refuses_target hrow hclaim hf hb (target_of_error (handleAt_of_slot hi) (resolve_eq_notLive hg hres))

/-! ### HOLD_TRIP and ARM_TRIP -/

theorem target_of_live {f : Frame} {st : Store} {h : Handle} {r : TripRecord} (hh : handleAt f 3 = some h)
    (hr : liveAs st h = some r) : target f st = .ok (h, r) :=
  target_eq_ok_iff.2 ⟨hh, hr⟩

theorem setLive_of_liveAs {st : Store} {h : Handle} {r : TripRecord} (hr : liveAs st h = some r) (x : TripRecord) :
    setLive h.slot x st = { st with slots := put st.slots h.slot ⟨h.gen, .live x⟩ } := by
  have hg := ((liveAs_eq_some_iff _ _ _).1 hr).1
  simp only [setLive, setContent, ← hg]

/-- A claim that sets the state of its target (R166, R167). -/
def SetsState (claim : Frame → State → Verdict (State × Reply)) (new : RecordState) : Prop :=
  ∀ f s, claim f s = (target f s.store >>= fun x => setState new x.1 x.2 s.store >>= fun st =>
    .ok (storeReply s st (be8 (stateCode x.2.state))))

theorem holdAndArm_rows :
    ∀ row ∈ [(Instr.holdTrip, 4, RecordState.held), (.armTrip, 5, .armed)],
      ∃ claim, RecordRow claim row.1 row.2.1 ∧ SetsState claim row.2.2 := by
  simp only [List.forall_mem_cons, List.not_mem_nil, false_imp_iff, implies_true, and_true]
  exact ⟨⟨_, exec_holdTrip, fun _ _ => rfl⟩, ⟨_, exec_armTrip, fun _ _ => rfl⟩⟩

/-- Settles O18. -/
theorem holdAndArmTripOutcome : Obligations.HoldAndArmTripOutcome := by
  intro s f h r c code new hmem hf hb hh hr
  obtain ⟨claim, hrow, hclaim⟩ := holdAndArm_rows _ hmem
  rw [hrow s f hf hb, hclaim, target_of_live hh hr, verdict_ok_bind]
  refine ⟨fun hstate => ?_, fun hstate => ?_⟩
  · rw [setState, decide_eq_false (not_not.2 hstate)]
    rfl
  · rw [setState, decide_eq_true hstate, ← setLive_of_liveAs hr]
    rfl

/-! ### QUERY_TRIP and AXIS_STATUS -/

theorem optionalBytes_be32 (o : Option Nat) : optionalBytes 4 (fun k => be32 k) o = be32 (o.getD 0 : Nat) := by
  cases o <;> rfl

theorem exec_axisStatus {s : State} {f : Frame} (hf : InProgress s f 20) :
    exec .axisStatus s = .next (answer f (axisStatus f s) s) :=
  serve_of_some axisStatus s (requestOf_of_inProgress hf)

theorem queryTrip_of_live {f : Frame} {s : State} {h : Handle} {r : TripRecord} (hb : batchFlag f = false)
    (hh : handleAt f 3 = some h) (hr : liveAs s.store h = some r) :
    queryTrip f s = .ok (s, ⟨.done, [querySetup h r, queryProgress h r]⟩) := by
  simp only [queryTrip, noBatchFlag_of_clear hb, target_of_live hh hr, verdict_ok_bind]
  rfl

/-- Settles O19. -/
theorem queryTripAndAxisStatusReport : Obligations.QueryTripAndAxisStatusReport := by
  refine ⟨fun s f h r hf hb hh hr => ?_, fun s f n hf hb hn => ?_⟩
  · rw [exec_queryTrip s f hf hb, queryTrip_of_live hb hh hr, answer_ok]
    simp only [querySetup, queryProgress, optionalBytes_be16, optionalBytes_be32]
    cases r.gate <;> cases r.successor <;> cases r.lastDirection <;> rfl
  · rw [exec_axisStatus hf, axisStatus, namedAxis_of_clear hb hn]
    rfl

end Sys2Proof.Machine
end

section
/-! The direct requests that add, modify and retire a record (O14, O16, O17). -/

namespace Sys2Proof.Machine

/-! ### Links that move -/

/-- A slot's link count reads the slot alone. -/
theorem relinked_congr {st st' : Store} {j : SlotNo} (h : st'.slots[j] = st.slots[j]) (old new : Option Handle) :
    relinked old new st' j = relinked old new st j := by
  have hh : handleOf st' j = handleOf st j := by rw [handleOf, handleOf, h]
  simp only [relinked, h, hh]

theorem handleOf_link (o : Option Handle) (st : Store) (j : SlotNo) : handleOf (link o st) j = handleOf st j := by
  cases o with
  | none => rfl
  | some h => cases hl : liveAs st h <;> simp [link, raisePred, hl]

/-- A link that moves to another successor counts the new one and no longer the old one. -/
theorem slots_moveLink (old new : Option Handle) (st : Store) (j : SlotNo) :
    (moveLink old new st).slots[j] = relinked old new st j := by
  unfold moveLink
  split
  next h =>
    subst h
    exact (relinked_self _ _ _).symm
  next h =>
    rw [slots_unlink]
    by_cases hnew : new = some (handleOf st j)
    · have hold : old ≠ some (handleOf (link new st) j) := by rw [handleOf_link, ← hnew]; exact h
      rw [relinked_of_ne (by simp) hold, slots_link]
      unfold relinked
      split
      next =>
        have hne : old ≠ some (handleOf st j) := fun e => h (e.trans hnew.symm)
        simp [hnew, hne]
      all_goals rfl
    · have hkept : (link new st).slots[j] = st.slots[j] := by rw [slots_link, relinked_of_ne hnew (by simp)]
      rw [relinked_congr hkept]
      unfold relinked
      split
      next =>
        cases old with
        | none => simp [hnew]
        | some o => simp [h, hnew]
      all_goals rfl

theorem moveLink_frame (old new : Option Handle) (st : Store) :
    moveLink old new st = { st with slots := (moveLink old new st).slots } := by
  unfold moveLink
  split
  · rfl
  · rw [unlink_frame, link_frame]

theorem positionOf_moveLink (old new : Option Handle) (st : Store) : positionOf (moveLink old new st) = positionOf st := by
  unfold moveLink
  split
  · rfl
  · rw [positionOf_unlink, positionOf_link]

/-! ### A record that becomes LIVE -/

/-- What a store holds after the record `r` has become LIVE in slot `i` of `st` (R14, R30, R158). -/
structure Enlivened (i : SlotNo) (r : TripRecord) (st st' : Store) : Prop where
  own : st'.slots[i] = ⟨st.slots[i].gen, .live r⟩
  others : ∀ j : SlotNo, j ≠ i → st'.slots[j] = relinked none r.successor st j
  lists : st'.lists = put st.lists r.axis (placeIn (positionOf st') i r.position st.lists[r.axis])
  occupancy : st'.occupancy = st.occupancy
  axisNotices : st'.axisNotices = st.axisNotices

theorem ne_handleOf_of_not_live {st : Store} {i : SlotNo} {o : Option Handle} (hi : liveAt st i = none)
    (hsucc : ¬ badSuccessor st o) : o ≠ some (handleOf st i) := by
  rintro rfl
  exact hsucc ⟨_, rfl, by rw [liveAs_handleOf, hi]⟩

theorem enlivened {i : SlotNo} {r : TripRecord} {st : Store} (hi : liveAt st i = none)
    (hsucc : ¬ badSuccessor st r.successor) : Enlivened i r st (enliven i r st) := by
  have hframe := link_frame r.successor (place r.axis i r.position (setLive i r st))
  have hpos : positionOf (enliven i r st) = positionOf (setLive i r st) := positionOf_link r.successor _
  constructor
  · have hne : r.successor ≠ some (handleOf (place r.axis i r.position (setLive i r st)) i) := by
      change _ ≠ some (handleOf (setLive i r st) i)
      rw [handleOf_setLive]
      exact ne_handleOf_of_not_live hi hsucc
    change (link r.successor _).slots[i] = _
    rw [slots_link, relinked_of_ne hne (by simp), place_slots, setLive_slots, getElem_put_self]
  · intro j hj
    change (link r.successor _).slots[j] = _
    rw [slots_link]
    exact relinked_congr (by rw [place_slots, setLive_slots, getElem_put_ne _ _ _ _ hj]) _ _
  · rw [hpos]
    change (link r.successor _).lists = _
    rw [hframe]
    rfl
  · change (link r.successor _).occupancy = _
    rw [hframe]
    rfl
  · change (link r.successor _).axisNotices = _
    rw [hframe]
    rfl

/-! ### ADD_TRIP -/

theorem exec_addTrip : RecordRow addTrip .addTrip 1 := recordRow_of_serve fun _ => rfl

theorem slotFor_of_full {st : Store} (hfull : ∀ i : SlotNo, st.slots[i].content ≠ .free) (cfg : AxisNo → AxisConfig)
    (n : AxisNo) : slotFor cfg n st = .error (refuse .full) := by
  simp only [slotFor, (lowestFree_eq_none_iff st).2 hfull]

theorem slotFor_of_free {st : Store} {i : SlotNo} (hi : IsLowestFree st i) (cfg : AxisNo → AxisConfig) (n : AxisNo) :
    slotFor cfg n st = if quotaReached (cfg n).quota st.occupancy[n] then .error (refuse .quota) else .ok i := by
  simp only [slotFor, (lowestFree_eq_some_iff st i).2 hi]

theorem slotFor_of_quota {st : Store} {i : SlotNo} (hi : IsLowestFree st i) {cfg : AxisNo → AxisConfig} {n : AxisNo}
    (h0 : (cfg n).quota ≠ 0) (hq : (cfg n).quota ≤ st.occupancy[n]) : slotFor cfg n st = .error (refuse .quota) := by
  rw [slotFor_of_free hi, if_pos ((quotaReached_iff _ _).2 ⟨h0, hq⟩)]

theorem slotFor_of_room {st : Store} {i : SlotNo} (hi : IsLowestFree st i) {cfg : AxisNo → AxisConfig} {n : AxisNo}
    (hq : (cfg n).quota = 0 ∨ st.occupancy[n] < (cfg n).quota) : slotFor cfg n st = .ok i := by
  rw [slotFor_of_free hi, if_neg]
  rw [quotaReached_iff]
  omega

theorem addTrip_of_fields {f : Frame} {s : State} {fields : TripFields}
    (hread : readTripFields (fun n => s.axes[n].config) f = .ok fields) :
    addTrip f s =
      (successorLive s.store fields.successor >>= fun _ => slotFor (configs s) fields.axis s.store >>= fun i =>
        .ok (storeReply s (enliven i (newRecord fields) (raiseOccupancy fields.axis s.store))
          (handleBytes (handleOf s.store i)))) := by
  change (readTripFields (fun n => s.axes[n].config) f >>= _) = _
  rw [hread, verdict_ok_bind]
  rfl

/-- Settles O14: the checks in order, and the record enlivened in the slot found for it. -/
theorem addTripOutcome : Obligations.AddTripOutcome := by
  refine ⟨fun s f e hf hb hread => ?_, fun s f fields hf hb hread => ?_⟩
  · rw [exec_addTrip s f hf hb]
    change Host.Outcome.next (answer f (readTripFields (fun n => s.axes[n].config) f >>= _) s) = _
    rw [hread, verdict_error_bind, answer_error]
  rw [exec_addTrip s f hf hb, addTrip_of_fields hread]
  refine ⟨fun hbad => ?_, fun hsucc hfull => ?_, fun i hsucc hi => ⟨fun h0 hq => ?_, fun hq => ?_⟩⟩
  · rw [successorLive_eq_error hbad]
    rfl
  · rw [successorLive_eq_ok hsucc, slotFor_of_full hfull]
    rfl
  · rw [successorLive_eq_ok hsucc, slotFor_of_quota hi h0 hq]
    rfl
  · have hfree : liveAt (raiseOccupancy fields.axis s.store) i = none := liveAt_eq_none_of_free hi.1
    have hst := enlivened (r := newRecord fields) hfree hsucc
    refine ⟨_, ?_, hst.own, fun j hj => (hst.others j hj).trans (relinked_congr rfl _ _), hst.lists, hst.occupancy,
      hst.axisNotices⟩
    rw [successorLive_eq_ok hsucc, slotFor_of_room hi hq]
    rfl

/-! ### MODIFY_TRIP -/

theorem modifyTrip_of_live {f : Frame} {s : State} {h : Handle} {r : TripRecord} (hh : handleAt f 3 = some h)
    (hr : liveAs s.store h = some r) :
    modifyTrip f s =
      (checkEntries f >>= fun _ => require (decide (r.state ≠ .spent)) (refuse .wrongState) >>= fun _ =>
        readChanges (some (s.axes[r.axis].config, r)) f >>= fun ch => checkSuccessor h ch s.store >>= fun _ =>
        .ok (storeReply s (releaseCheckOf (formerSuccessor r ch) (modifyRecord h r ch s.store))
          (modifyItems (changed r ch) (formerSuccessor r ch)
            (releaseCheckOf (formerSuccessor r ch) (modifyRecord h r ch s.store))))) := by
  rw [modifyTrip, target_of_live hh hr, verdict_ok_bind]
  rfl

theorem setSuccessor_eq_some_iff (c : Change Handle) (k : Handle) : setSuccessor c = some k ↔ c = .set k := by
  cases c <;> simp [setSuccessor]

theorem checkSuccessor_eq_error {h : Handle} {ch : Changes} {st : Store}
    (hbad : ch.successor = .set h ∨ ∃ k, ch.successor = .set k ∧ liveAs st k = none) :
    checkSuccessor h ch st = .error (refuse .badLink) := by
  unfold checkSuccessor
  by_cases hself : setSuccessor ch.successor = some h
  · rw [decide_eq_false (not_not.2 hself), require_false, verdict_error_bind]
  · rw [decide_eq_true hself, require_true, verdict_ok_bind]
    obtain hset | ⟨k, hset, hk⟩ := hbad
    · exact absurd ((setSuccessor_eq_some_iff _ _).2 hset) hself
    · exact successorLive_eq_error ⟨k, (setSuccessor_eq_some_iff _ _).2 hset, hk⟩

theorem checkSuccessor_eq_ok {h : Handle} {ch : Changes} {st : Store} (hself : ch.successor ≠ .set h)
    (hlive : ∀ k, ch.successor = .set k → liveAs st k ≠ none) : checkSuccessor h ch st = .ok () := by
  rw [checkSuccessor_eq_ok_iff]
  intro k hk
  rw [setSuccessor_eq_some_iff] at hk
  exact ⟨fun e => hself (e ▸ hk), Option.isSome_iff_ne_none.2 (hlive k hk)⟩

theorem successor_changed_ne {r : TripRecord} {ch : Changes} {h : Handle} (hr : r.successor ≠ some h)
    (hself : ch.successor ≠ .set h) : (changed r ch).successor ≠ some h := by
  change applyChange ch.successor r.successor ≠ some h
  cases hc : ch.successor with
  | keep => exact hr
  | remove => simp [applyChange]
  | set k =>
    rw [hc] at hself
    simpa [applyChange] using hself

section Modify

variable {st : Store} {h : Handle} {r : TripRecord} {ch : Changes}

/-- The list of the record's axis after a MODIFY-TRIP (R161). -/
theorem lists_modifyRecord :
    (modifyRecord h r ch st).lists =
      match ch.position with
      | some p => put st.lists r.axis
          (placeIn (positionOf (modifyRecord h r ch st)) h.slot p (st.lists[r.axis].filter (· ≠ h.slot)))
      | none => st.lists := by
  have hpos : positionOf (modifyRecord h r ch st) = positionOf (changeRecord h.slot r ch st) := positionOf_moveLink _ _ _
  have hlists : (modifyRecord h r ch st).lists = (changeRecord h.slot r ch st).lists := by
    rw [modifyRecord, moveLink_frame]
  rw [hlists, hpos]
  unfold changeRecord
  cases hp : ch.position with
  | none => rfl
  | some p =>
    have hcp : (changed r ch).position = p := by
      change ch.position.getD r.position = p
      rw [hp]
      rfl
    simp only [Option.isSome_some, if_true, rePlace, hcp]
    rw [place_lists, setLive_lists, unlist_lists, put_put, getElem_put_self]
    rfl

theorem occupancy_modifyRecord : (modifyRecord h r ch st).occupancy = st.occupancy := by
  rw [modifyRecord, moveLink_frame]
  unfold changeRecord
  split <;> rfl

theorem axisNotices_modifyRecord : (modifyRecord h r ch st).axisNotices = st.axisNotices := by
  rw [modifyRecord, moveLink_frame]
  unfold changeRecord
  split <;> rfl

theorem slots_modifyRecord_self (hr : liveAs st h = some r) (hsucc : r.successor ≠ some h) (hself : ch.successor ≠ .set h) :
    (modifyRecord h r ch st).slots[h.slot] = ⟨h.gen, .live (changed r ch)⟩ := by
  have hslot : (changeRecord h.slot r ch st).slots[h.slot] = ⟨h.gen, .live (changed r ch)⟩ := by
    rw [slots_changeRecord, setLive_of_liveAs hr]
    exact getElem_put_self _ _ _
  have hhandle : handleOf (changeRecord h.slot r ch st) h.slot = h := by rw [handleOf, hslot]
  rw [modifyRecord, slots_moveLink, relinked_of_ne, hslot]
  · rw [hhandle]; exact successor_changed_ne hsucc hself
  · rw [hhandle]; exact hsucc

theorem slots_modifyRecord_of_ne {j : SlotNo} (hj : j ≠ h.slot) :
    (modifyRecord h r ch st).slots[j] = relinked r.successor (changed r ch).successor st j := by
  rw [modifyRecord, slots_moveLink]
  refine relinked_congr ?_ _ _
  rw [slots_changeRecord, setLive_slots, getElem_put_ne _ _ _ _ hj]

end Modify

/-- Settles O16: the checks in order, and the store that MODIFY-TRIP leaves before the release check. -/
theorem modifyTripOutcome : Obligations.ModifyTripOutcome := by
  intro s f h r hf hb hh hr hsucc
  rw [exec_modifyTrip s f hf hb, modifyTrip_of_live hh hr]
  refine ⟨fun e he => ?_, fun hentries hstate => ?_, fun hentries hstate => ⟨fun e he => ?_, fun ch hread => ?_⟩⟩
  · rw [he, verdict_error_bind, answer_error]
  · rw [hentries, decide_eq_false (not_not.2 hstate)]
    rfl
  · rw [hentries, decide_eq_true hstate, he]
    rfl
  rw [hentries, decide_eq_true hstate, hread, verdict_ok_bind, require_true, verdict_ok_bind, verdict_ok_bind]
  refine ⟨fun hbad => ?_, fun hself hlive => ?_⟩
  · rw [checkSuccessor_eq_error hbad]
    rfl
  · refine ⟨modifyRecord h r ch s.store, ?_, slots_modifyRecord_self hr hsucc hself, fun j hj => slots_modifyRecord_of_ne hj,
      lists_modifyRecord, occupancy_modifyRecord, axisNotices_modifyRecord⟩
    rw [checkSuccessor_eq_ok hself hlive]
    rfl

/-! ### RETIRE_TRIP -/

theorem retireTrip_of_live {f : Frame} {s : State} {h : Handle} {r : TripRecord} (hh : handleAt f 3 = some h)
    (hr : liveAs s.store h = some r) :
    retireTrip f s =
      (require (decide (r.predCount = 0)) ⟨.inUse, be16 r.predCount⟩ >>= fun _ =>
        .ok (storeReply s (releaseCheckOf r.successor (retireRecord h r s.store))
          (be8 (stateCode r.state) ++ kindsByte r.pending {}))) := by
  rw [retireTrip, target_of_live hh hr, verdict_ok_bind]
  rfl

section Retire

variable {st : Store} {h : Handle} {r : TripRecord}

/-- The store of a RETIRE-TRIP with its slot freed, its successor still counting it (R165). -/
theorem freed_of_retired (hr : liveAs st h = some r) :
    freeSlot h.slot (if r.state = .spent then st else unlist r.axis h.slot st) =
      { st with
        slots := put st.slots h.slot ⟨h.gen + 1, .free⟩
        lists := if r.state = .spent then st.lists else put st.lists r.axis (st.lists[r.axis].filter (· ≠ h.slot))
        occupancy := put st.occupancy r.axis (st.occupancy[r.axis] - 1) } := by
  obtain ⟨hg, hlive⟩ := (liveAs_eq_some_iff _ _ _).1 hr
  split
  · rw [freeSlot_of_live hlive, hg]
  · rw [freeSlot_of_live (st := unlist r.axis h.slot st) hlive, unlist_slots, hg]
    rfl

theorem slots_retireRecord_self (hr : liveAs st h = some r) : (retireRecord h r st).slots[h.slot] = ⟨h.gen + 1, .free⟩ := by
  rw [retireRecord, freed_of_retired hr, slots_unlink, relinked_of_not_live]
  · exact getElem_put_self _ _ _
  · exact liveAt_eq_none_of_free (by rw [getElem_put_self])

theorem slots_retireRecord_of_ne (hr : liveAs st h = some r) {j : SlotNo} (hj : j ≠ h.slot) :
    (retireRecord h r st).slots[j] = relinked r.successor none st j := by
  rw [retireRecord, freed_of_retired hr, slots_unlink]
  exact relinked_congr (getElem_put_ne _ _ _ _ hj) _ _

theorem retireRecord_frame (hr : liveAs st h = some r) :
    (retireRecord h r st).lists =
        (if r.state = .spent then st.lists else put st.lists r.axis (st.lists[r.axis].filter (· ≠ h.slot))) ∧
      (retireRecord h r st).occupancy = put st.occupancy r.axis (st.occupancy[r.axis] - 1) ∧
      (retireRecord h r st).axisNotices = st.axisNotices := by
  rw [retireRecord, freed_of_retired hr, unlink_frame]
  exact ⟨rfl, rfl, rfl⟩

end Retire

/-- Settles O17. -/
theorem retireTripOutcome : Obligations.RetireTripOutcome := by
  intro s f h r hf hb hh hr
  rw [exec_retireTrip s f hf hb, retireTrip_of_live hh hr]
  refine ⟨fun hpred => ?_, fun hpred => ?_⟩
  · rw [decide_eq_false hpred]
    rfl
  · refine ⟨retireRecord h r s.store, ?_, slots_retireRecord_self hr, fun j hj => slots_retireRecord_of_ne hr hj,
      retireRecord_frame hr⟩
    rw [decide_eq_true hpred]
    rfl

end Sys2Proof.Machine
end

section
/-! The scan of an axis, the acknowledgement of notices, and the requests that open and discard a batch (O20, O24, O25). -/

namespace Sys2Proof.Machine

/-! ### Response groups of several parts -/

theorem respond_eq_completedWith (f : Frame) (r : Reply) (s : State) : respond f r s = completedWith (responseGroup f r) s := rfl

/-- A response of `m` parts given by their index has them numbered from 1. -/
theorem responseGroup_range (f : Frame) (c : Completion) (m : Nat) (items : Nat → List Byte) :
    responseGroup f ⟨c, (List.range m).map items⟩ = (List.range m).map fun k => partOf f c (k + 1) m (items k) := by
  refine List.ext_getElem (by simp [responseGroup]) fun k _ _ => ?_
  simp [responseGroup, partOf]

/-! ### SCAN_AXIS -/

/-- A test that, once passed along a list, stays passed selects the rest of the list. -/
theorem filter_eq_dropWhile {α : Type} {p : α → Bool} {l : List α} (h : l.Pairwise fun a b => p a = true → p b = true) :
    l.filter p = l.dropWhile fun a => !p a := by
  induction l with
  | nil => rfl
  | cons a l ih =>
    obtain ⟨ha, hl⟩ := List.pairwise_cons.1 h
    cases hp : p a with
    | false => simpa [hp] using ih hl
    | true => simpa [hp] using fun b hb => ha b hb hp

section Order

variable {st : Store} {n : AxisNo} (h : st.lists[n].Pairwise fun i j => positionOf st i ≤ positionOf st j)
include h

theorem scanOrder_up (start : Int) :
    scanOrder st n start .up = st.lists[n].dropWhile fun i => decide (positionOf st i < start) := by
  rw [scanOrder, filter_eq_dropWhile]
  · simp only [← decide_not, Int.not_le]
  · exact h.imp fun hij hi => by simp only [decide_eq_true_eq] at hi ⊢; omega

theorem scanOrder_down (start : Int) :
    scanOrder st n start .down = st.lists[n].reverse.dropWhile fun i => decide (start < positionOf st i) := by
  rw [scanOrder, filter_eq_dropWhile]
  · simp only [← decide_not, Int.not_le]
  · exact List.pairwise_reverse.2 (h.imp fun hij hi => by simp only [decide_eq_true_eq] at hi ⊢; omega)

end Order

/-- The response to a scan whose records, in scan order after the skip, are `after` (R173). -/
def scanReply (st : Store) (after : List SlotNo) (count : Nat) : Reply :=
  ⟨.done, (List.range ((count + 1) / 2)).map
    (scanPart st (after.take count) (decide (count < after.length)) ((count + 1) / 2))⟩

theorem exec_scanAxis {s : State} {f : Frame} (hf : InProgress s f 7) : exec .scanAxis s = .next (answer f (scanAxis f s) s) :=
  serve_of_some scanAxis s (requestOf_of_inProgress hf)

theorem scanAxis_of_named {f : Frame} {n : AxisNo} (hb : batchFlag f = false) (hn : u8 f 3 = n.val) (s : State) :
    scanAxis f s =
      (fieldOr 8 7 (scanDirectionOf (u8 f 8)) >>= fun dir => fieldOr 9 7 (within 1 6 (u8 f 9)) >>= fun count =>
        fieldOr 10 7 (within 0 383 (u16 f 10)) >>= fun skip =>
          fieldOr 4 7 (positionIn (configs s n).span (i32 f 4)) >>= fun start =>
          .ok (s, scanReply s.store ((scanOrder s.store n start dir).drop skip) count)) := by
  change (namedAxis f >>= fun n => _) = _
  rw [namedAxis_of_clear hb hn]
  rfl

theorem scanDirectionOf_eq_none {k : Nat} (h : 2 ≤ k) : scanDirectionOf k = none := by
  match k, h with
  | k + 2, _ => rfl

theorem scanDirectionOf_of_le {k : Nat} (h : k ≤ 1) : scanDirectionOf k = some (if k = 0 then .up else .down) := by
  interval_cases k <;> rfl

theorem within_of_between {lo hi k : Nat} (hlo : lo ≤ k) (hhi : k ≤ hi) : within lo hi k = some k :=
  within_eq_some_iff.2 ⟨⟨hlo, hhi⟩, rfl⟩

theorem positionIn_of_inRange {sp : Span} {p : Int} (h : inRange sp p = true) : positionIn sp p = some p :=
  if_pos h

theorem scanItem_eq (st : Store) (o : Option SlotNo) :
    optionalBytes 9 (scanItem st) o =
      match o.bind fun i => (liveAt st i).map fun r => (i, r) with
      | some (i, r) => handleBytes (handleOf st i) ++ be32 r.position ++ be8 (stateCode r.state) ++ be16 r.tag
      | none => [0, 0, 0, 0, 0, 0, 0, 0, 0] := by
  cases o with
  | none => rfl
  | some i => cases h : liveAt st i <;> simp [optionalBytes, scanItem, h]

theorem isSome_getElem?_eq_decide {α : Type} (l : List α) (k : Nat) : l[k]?.isSome = decide (k < l.length) :=
  bool_eq_of_iff (by simp)

/-- Settles O20: of a sorted list the records at or past the start are a suffix of the scan order. -/
theorem scanAxisReportsFromTheStart : Obligations.ScanAxisReportsFromTheStart := by
  refine ⟨fun s f hf hb => ⟨fun haxis => ?_, fun n hn => ?_⟩, ?_⟩
  · exact (refusesAxis_rows (.scanAxis, 7) (by simp)).1 s f hf hb haxis
  · rw [exec_scanAxis hf, scanAxis_of_named hb hn]
    refine ⟨fun hdir => ?_, fun hdir hcount => ?_, fun hdir hlo hhi hskip => ?_, fun hdir hlo hhi hskip m hspan hstart => ?_⟩
    · rw [scanDirectionOf_eq_none hdir]
      rfl
    · rw [scanDirectionOf_of_le hdir, (within_eq_none_iff _ _ _).2 (by omega)]
      rfl
    · rw [scanDirectionOf_of_le hdir, within_of_between hlo hhi, (within_eq_none_iff _ _ _).2 (.inr (by omega))]
      rfl
    · have hnone : positionIn (configs s n).span (i32 f 4) = none :=
        (positionIn_eq_none_iff _ _ _).2 ((not_inRange_i32_iff _ _ _).2 ⟨m, hspan, hstart⟩)
      rw [scanDirectionOf_of_le hdir, within_of_between hlo hhi, within_of_between (Nat.zero_le _) hskip, hnone]
      rfl
  · intro s f n hf hb hn hdir hlo hhi hskip hstart hsorted fromStart after parts reported item
    have horder : scanOrder s.store n (i32 f 4) (if u8 f 8 = 0 then .up else .down) = fromStart := by
      simp only [fromStart]
      split
      · exact scanOrder_up hsorted _
      · exact scanOrder_down hsorted _
    rw [exec_scanAxis hf, scanAxis_of_named hb hn, scanDirectionOf_of_le hdir, within_of_between hlo hhi,
      within_of_between (Nat.zero_le _) hskip, positionIn_of_inRange (sp := (configs s n).span) hstart]
    simp only [fieldOr_some, verdict_ok_bind, horder, answer_ok, respond_eq_completedWith, scanReply, responseGroup_range,
      scanPart, isSome_getElem?_eq_decide, scanItem_eq]
    rfl

/-! ### ACK_NOTICES -/

theorem exec_ackNotices {s : State} {f : Frame} (hf : InProgress s f 11) :
    exec .ackNotices s = .next (answer f (ackNotices f s) s) :=
  serve_of_some ackNotices s (requestOf_of_inProgress hf)

section Subject

variable {f : Frame} (hb : batchFlag f = false) (s : State)
include hb

theorem ackNotices_of_axis (hsort : u8 f 3 = 0) : ackNotices f s = ackAxis f s := by
  simp only [ackNotices, noBatchFlag_of_clear hb, verdict_ok_bind, hsort]

theorem ackNotices_of_record (hsort : u8 f 3 = 1) : ackNotices f s = ackRecord f s := by
  simp only [ackNotices, noBatchFlag_of_clear hb, verdict_ok_bind, hsort]

theorem ackNotices_of_no_sort (hsort : 2 ≤ u8 f 3) : ackNotices f s = .error (badField 3 7) := by
  rw [ackNotices, noBatchFlag_of_clear hb, verdict_ok_bind]
  match u8 f 3, hsort with
  | k + 2, _ => rfl

end Subject

/-- The kinds named at byte 6 hold one of a record. -/
def NamesRecordKind (f : Frame) : Prop := bitAt f 6 0 = true ∨ bitAt f 6 1 = true ∨ bitAt f 6 2 = true

/-- The kinds named at byte 6 hold one of an axis. -/
def NamesAxisKind (f : Frame) : Prop := bitAt f 6 3 = true ∨ bitAt f 6 4 = true ∨ bitAt f 6 5 = true

theorem namesAxisKind_iff (f : Frame) : namesAxisKind f 6 = true ↔ NamesAxisKind f := by
  simp only [namesAxisKind, NamesAxisKind, Bool.or_eq_true, or_assoc]

theorem noKinds_recordKindsAt_iff (f : Frame) : noKinds (recordKindsAt f 6) = true ↔ ¬ NamesRecordKind f := by
  simp only [noKinds, recordKindsAt, NamesRecordKind, Bool.and_eq_true, Bool.not_eq_true', not_or, Bool.not_eq_true, and_assoc]

theorem checkKinds_axis (f : Frame) [Decidable (NamesAxisKind f ∧ ¬ NamesRecordKind f)] :
    checkKinds true f = require (decide (NamesAxisKind f ∧ ¬ NamesRecordKind f)) (badField 6 7) :=
  congrArg (require · _) (bool_eq_of_iff (by
    rw [if_pos rfl, Bool.and_eq_true, namesAxisKind_iff, noKinds_recordKindsAt_iff, decide_eq_true_eq]))

theorem checkKinds_record (f : Frame) [Decidable (NamesRecordKind f ∧ ¬ NamesAxisKind f)] :
    checkKinds false f = require (decide (NamesRecordKind f ∧ ¬ NamesAxisKind f)) (badField 6 7) :=
  congrArg (require · _) (bool_eq_of_iff (by
    rw [if_neg (by decide), Bool.and_eq_true, Bool.not_eq_true', Bool.not_eq_true', ← Bool.not_eq_true, ← Bool.not_eq_true,
      namesAxisKind_iff, noKinds_recordKindsAt_iff, not_not, decide_eq_true_eq, and_comm]))

theorem not_namesRecordKind {f : Frame} (h0 : bitAt f 6 0 = false) (h1 : bitAt f 6 1 = false) (h2 : bitAt f 6 2 = false) :
    ¬ NamesRecordKind f := by
  simp [NamesRecordKind, h0, h1, h2]

theorem not_namesAxisKind {f : Frame} (h3 : bitAt f 6 3 = false) (h4 : bitAt f 6 4 = false) (h5 : bitAt f 6 5 = false) :
    ¬ NamesAxisKind f := by
  simp [NamesAxisKind, h3, h4, h5]

/-- The store of an ACK-NOTICES of a record: the release check comes when the named kinds empty the pending ones (R146). -/
theorem ackRecordStore_eq {st : Store} {h : Handle} {r : TripRecord} (hr : liveAs st h = some r) (m : RecordKinds) :
    ackRecordStore h r m st =
      if kindsWithout r.pending m = ⟨false, false, false⟩ ∧ commonKinds r.pending m ≠ ⟨false, false, false⟩ then
        releaseCheck h { st with slots := put st.slots h.slot ⟨h.gen, .live { r with pending := kindsWithout r.pending m }⟩ }
      else { st with slots := put st.slots h.slot ⟨h.gen, .live { r with pending := kindsWithout r.pending m }⟩ } := by
  simp only [ackRecordStore, setLive_of_liveAs hr, Bool.and_eq_true, Bool.not_eq_true', ← Bool.not_eq_true, noKinds_iff, ne_eq]

theorem ackRecord_of_resolved {f : Frame} {s : State} {h : Handle} (hh : handleAt f 4 = some h) :
    ackRecord f s =
      (resolve s.store h >>= fun r => checkKinds false f >>= fun _ =>
        .ok (storeReply s (ackRecordStore h r (recordKindsAt f 6) s.store)
          (kindsByte (commonKinds r.pending (recordKindsAt f 6)) {} ++ kindsByte (kindsWithout r.pending (recordKindsAt f 6)) {}
            ++ flagByte (liveAs (ackRecordStore h r (recordKindsAt f 6) s.store) h).isNone))) := by
  rw [ackRecord, hh, fieldOr_some, verdict_ok_bind]
  rfl

theorem ackAxis_of_named {f : Frame} {s : State} {n : AxisNo} (hn : u16 f 4 = n.val) :
    ackAxis f s =
      (checkKinds true f >>= fun _ =>
        .ok (storeReply s { s.store with axisNotices := put s.store.axisNotices n (axisKindsKept f s.store.axisNotices[n]) }
          (kindsByte {} (axisKindsNamed f s.store.axisNotices[n]) ++ causesByte (axisKindsNamed f s.store.axisNotices[n])
            ++ kindsByte {} (axisKindsKept f s.store.axisNotices[n])))) := by
  rw [ackAxis, finOf_of_eq hn, fieldOr_some, verdict_ok_bind]
  rfl

theorem ackNotices_refusals {s : State} {f : Frame} (hf : InProgress s f 11) (hb : batchFlag f = false) :
    (2 ≤ u8 f 3 → exec .ackNotices s = .next (answered f .badField (be8 3 ++ be8 7) s)) ∧
    (u8 f 3 = 0 → 8 ≤ u16 f 4 → exec .ackNotices s = .next (answered f .badField (be8 4 ++ be8 7) s)) ∧
    (u8 f 3 = 0 → u16 f 4 ≤ 7 → (NamesRecordKind f ∨ ¬ NamesAxisKind f) →
      exec .ackNotices s = .next (answered f .badField (be8 6 ++ be8 7) s)) ∧
    (u8 f 3 = 1 → 384 ≤ u16 f 4 / 64 → exec .ackNotices s = .next (answered f .badField (be8 4 ++ be8 7) s)) := by
  classical
  rw [exec_ackNotices hf]
  refine ⟨fun hsort => ?_, fun hsort hn => ?_, fun hsort hn hkinds => ?_, fun hsort hslot => ?_⟩
  · rw [ackNotices_of_no_sort hb s hsort]
    rfl
  · rw [ackNotices_of_axis hb s hsort, ackAxis, finOf_of_le hn]
    rfl
  · rw [ackNotices_of_axis hb s hsort, ackAxis_of_named (n := ⟨u16 f 4, by omega⟩) rfl, checkKinds_axis,
      decide_eq_false (by tauto)]
    rfl
  · rw [ackNotices_of_record hb s hsort, ackRecord, (handleAt_eq_none_iff f 4).2 hslot]
    rfl

theorem ackNotices_record_refusals {s : State} {f : Frame} (hf : InProgress s f 11) (hb : batchFlag f = false) {i : SlotNo}
    (hsort : u8 f 3 = 1) (hslot : u16 f 4 / 64 = i.val) :
    (s.store.slots[i].content = .free ∨ s.store.slots[i].gen ≠ BitVec.ofNat 6 (u16 f 4) →
      exec .ackNotices s = .next (answered f .stale [] s)) ∧
    (s.store.slots[i].gen = BitVec.ofNat 6 (u16 f 4) → (∃ r, s.store.slots[i].content = .reserved r) →
      exec .ackNotices s = .next (answered f .notLive [] s)) ∧
    (s.store.slots[i].gen = BitVec.ofNat 6 (u16 f 4) → (∃ r, s.store.slots[i].content = .live r) →
      (NamesAxisKind f ∨ ¬ NamesRecordKind f) → exec .ackNotices s = .next (answered f .badField (be8 6 ++ be8 7) s)) := by
  classical
  rw [exec_ackNotices hf, ackNotices_of_record hb s hsort, ackRecord_of_resolved (handleAt_of_slot hslot)]
  refine ⟨fun hstale => ?_, fun hg hres => ?_, fun hg ⟨r, hr⟩ hkinds => ?_⟩
  · rw [resolve_eq_stale hstale]
    rfl
  · rw [resolve_eq_notLive hg hres]
    rfl
  · rw [(resolve_eq_ok_iff _ _ _).2 ((liveAs_eq_some_iff _ ⟨i, BitVec.ofNat 6 (u16 f 4)⟩ _).2 ⟨hg, (liveAt_eq_some_iff _ _ _).2 hr⟩),
      checkKinds_record, decide_eq_false (by tauto)]
    rfl

/-- Settles O24. -/
theorem ackNoticesClearsTheNamedKinds : Obligations.AckNoticesClearsTheNamedKinds := by
  classical
  refine ⟨fun s f hf hb => ?_, fun s f h r hf hb hsort hh hr h3 h4 h5 hnamed => ?_,
    fun s f n hf hb hsort hn h0 h1 h2 hnamed => ?_⟩
  · obtain ⟨hno, haxis, hkinds, hslot⟩ := ackNotices_refusals hf hb
    exact ⟨hno, haxis, hkinds, hslot, fun i hsort hi => ackNotices_record_refusals hf hb hsort hi⟩
  · have hkinds : checkKinds false f = .ok () := by
      rw [checkKinds_record, decide_eq_true ⟨hnamed, not_namesAxisKind h3 h4 h5⟩, require_true]
    rw [exec_ackNotices hf, ackNotices_of_record hb s hsort, ackRecord_of_resolved hh, (resolve_eq_ok_iff _ _ _).2 hr,
      verdict_ok_bind, hkinds, verdict_ok_bind, ackRecordStore_eq hr]
    rfl
  · have hkinds : checkKinds true f = .ok () := by
      rw [checkKinds_axis, decide_eq_true ⟨hnamed, not_namesRecordKind h0 h1 h2⟩, require_true]
    rw [exec_ackNotices hf, ackNotices_of_axis hb s hsort, ackAxis_of_named hn, hkinds]
    rfl

/-! ### OPEN_BATCH and DISCARD_BATCH -/

/-- A store whose reserved slots are freed and whose counts no longer hold them (R188, R192). -/
structure Unreserved (st st' : Store) : Prop where
  slots : ∀ i : SlotNo, st'.slots[i] =
    match st.slots[i].content with
    | .reserved _ => ⟨st.slots[i].gen + 1, .free⟩
    | .free | .live _ => st.slots[i]
  lists : st'.lists = st.lists
  occupancy : ∀ n : AxisNo, st'.occupancy[n] = st.occupancy[n] - reservedCount st n
  axisNotices : st'.axisNotices = st.axisNotices

theorem unreserved_unreserve (st : Store) : Unreserved st (unreserve st) :=
  ⟨slots_unreserve st, rfl, fun n => getElem_tabulate _ n.val n.isLt, rfl⟩

theorem discardBatch_of_clear {s : State} {f : Frame} (hf : InProgress s f 14) (hb : batchFlag f = false) :
    exec .discardBatch s =
      .next (answer f (require s.manager.batchOpen (refuse .noBatch) >>= fun _ =>
        .ok (storeReply (closeBatch s) (unreserve s.store)
          (be8 s.manager.staging.length ++ be16 (reservedSlots s.store)))) s) := by
  change serve (requestOf 14 s) discardBatch s = _
  rw [serve_of_some discardBatch s (requestOf_of_inProgress hf), discardBatch, noBatchFlag_of_clear hb, verdict_ok_bind]
  rfl

theorem openBatch_of_clear {s : State} {f : Frame} (hf : InProgress s f 12) (hb : batchFlag f = false) :
    exec .openBatch s =
      .next (answer f (require (!s.manager.batchOpen) (refuse .batchOpen) >>= fun _ =>
        .ok ({ s with manager := { s.manager with batchOpen := true, staging := [] } }, doneWith [])) s) := by
  change serve (requestOf 12 s) openBatch s = _
  rw [serve_of_some openBatch s (requestOf_of_inProgress hf), openBatch, noBatchFlag_of_clear hb, verdict_ok_bind]
  rfl

/-- Settles O25. -/
theorem openAndDiscardBatchOutcome : Obligations.OpenAndDiscardBatchOutcome := by
  refine ⟨fun s f hf hb => ?_, fun s f hf hb => ?_⟩
  · rw [openBatch_of_clear hf hb]
    cases s.manager.batchOpen <;> rfl
  · rw [discardBatch_of_clear hf hb]
    refine ⟨fun hopen => ?_, fun hopen => ?_⟩ <;> rw [hopen]
    · rfl
    · obtain ⟨hslots, hlists, hocc, hax⟩ := unreserved_unreserve s.store
      exact ⟨unreserve s.store, rfl, hslots, hlists, hocc, hax⟩

end Sys2Proof.Machine
end

section
/-! The staged requests and the commit of a batch (O26, O27). -/

namespace Sys2Proof.Machine

/-! ### Staged requests -/

section Open

variable {s : State}

theorem stagingOpen_of_closed (h : s.manager.batchOpen = false) : stagingOpen s = .error (refuse .noBatch) := by
  rw [stagingOpen, h, require_false, verdict_error_bind]

theorem stagingOpen_of_full (h : s.manager.batchOpen = true) (hfull : 24 ≤ s.manager.staging.length) :
    stagingOpen s = .error (refuse .batchFull) := by
  rw [stagingOpen, h, require_true, verdict_ok_bind,
    decide_eq_false (Nat.not_lt.2 (show Config.stagingPlaces ≤ _ from hfull)), require_false]

theorem stagingOpen_of_room (h : s.manager.batchOpen = true) (hroom : s.manager.staging.length < 24) :
    stagingOpen s = .ok () := by
  rw [stagingOpen, h, require_true, verdict_ok_bind, decide_eq_true (by exact hroom), require_true]

end Open

/-- The row answers the record request with code `code`, its batch flag set, by `claim`, which first checks the batch (R179). -/
structure StagedRow (claim : Frame → State → Verdict (State × Reply)) (c : Instr) (code : Nat) : Prop where
  exec_eq : ∀ s f, InProgress s f code → batchFlag f = true → exec c s = .next (answer f (claim f s) s)
  checksBatch : ∀ f s, ∃ k : Unit → Verdict (State × Reply), claim f s = (stagingOpen s >>= k)

theorem stagedRow_of_serve {claim : Frame → State → Verdict (State × Reply)} {c : Instr} {code : Nat}
    (h : ∀ s, exec c s = serve (recordRequestOf code true s) claim s)
    (hclaim : ∀ f s, ∃ k : Unit → Verdict (State × Reply), claim f s = (stagingOpen s >>= k)) : StagedRow claim c code :=
  ⟨fun s f hf hb => by rw [h, serve_of_some claim s (recordRequestOf_of_inProgress hf hb)], hclaim⟩

theorem stagedRow_addTrip : StagedRow stagedAddTrip .stagedAddTrip 1 := stagedRow_of_serve (fun _ => rfl) fun _ _ => ⟨_, rfl⟩

theorem StagedRow.refuses {claim : Frame → State → Verdict (State × Reply)} {c : Instr} {code : Nat} (hrow : StagedRow claim c code)
    {s : State} {f : Frame} (hf : InProgress s f code) (hb : batchFlag f = true) :
    (s.manager.batchOpen = false → exec c s = .next (answered f .noBatch [] s)) ∧
    (s.manager.batchOpen = true → 24 ≤ s.manager.staging.length → exec c s = .next (answered f .batchFull [] s)) := by
  obtain ⟨k, hk⟩ := hrow.checksBatch f s
  rw [hrow.exec_eq s f hf hb, hk]
  refine ⟨fun hopen => ?_, fun hopen hfull => ?_⟩
  · rw [stagingOpen_of_closed hopen]
    rfl
  · rw [stagingOpen_of_full hopen hfull]
    rfl

theorem stagedAddTrip_of_room {f : Frame} {s : State} (h : s.manager.batchOpen = true) (hroom : s.manager.staging.length < 24) :
    stagedAddTrip f s =
      (readTripFields (fun n => s.axes[n].config) f >>= fun fields => slotFor (configs s) fields.axis s.store >>= fun i =>
        .ok (stage f (.add fields (handleOf s.store i)) (handleBytes (handleOf s.store i))
          (setStore (reserve i (newRecord fields) s.store) s))) := by
  rw [stagedAddTrip, stagingOpen_of_room h hroom, verdict_ok_bind]
  rfl

theorem stagedAddTrip_outcome {s : State} {f : Frame} (hf : InProgress s f 1) (hb : batchFlag f = true)
    (hopen : s.manager.batchOpen = true) (hroom : s.manager.staging.length < 24) {fields : TripFields}
    (hread : readTripFields (fun n => s.axes[n].config) f = .ok fields) :
    ((∀ i : SlotNo, s.store.slots[i].content ≠ .free) → exec .stagedAddTrip s = .next (answered f .full [] s)) ∧
    ∀ i : SlotNo, IsLowestFree s.store i →
      let h := handleOf s.store i
      (s.axes[fields.axis].config.quota ≠ 0 → s.axes[fields.axis].config.quota ≤ s.store.occupancy[fields.axis] →
        exec .stagedAddTrip s = .next (answered f .quota [] s)) ∧
      (s.axes[fields.axis].config.quota = 0 ∨ s.store.occupancy[fields.axis] < s.axes[fields.axis].config.quota →
        exec .stagedAddTrip s =
          .next (answered f .staged (be8 s.manager.staging.length ++ handleBytes h)
            { s with
              store := { s.store with
                slots := put s.store.slots i ⟨h.gen, .reserved { fields with }⟩
                occupancy := put s.store.occupancy fields.axis (s.store.occupancy[fields.axis] + 1) }
              manager := { s.manager with staging := s.manager.staging ++ [⟨.add fields h, byteAt f 1⟩] } })) := by
  rw [stagedRow_addTrip.exec_eq s f hf hb, stagedAddTrip_of_room hopen hroom, hread, verdict_ok_bind]
  refine ⟨fun hfull => ?_, fun i hi => ⟨fun h0 hq => ?_, fun hq => ?_⟩⟩
  · rw [slotFor_of_full hfull]
    rfl
  · rw [slotFor_of_quota hi h0 hq]
    rfl
  · rw [slotFor_of_room hi hq]
    rfl

/-- The claim, once it has found room in the staging list, reads the target handle and stages what `op` makes of it (R181). -/
def StagesTarget (claim : Frame → State → Verdict (State × Reply)) (op : Frame → Handle → Verdict StagedOp) : Prop :=
  ∀ f s, claim f s = (stagingOpen s >>= fun _ => fieldOr 3 7 (handleAt f 3) >>= fun h => op f h >>= fun x => .ok (stage f x [] s))

/-- The operation that a staged MODIFY-TRIP carries, its own checks made (R181). -/
def stagedChanges (f : Frame) (h : Handle) : Verdict StagedOp :=
  checkEntries f >>= fun _ => readChanges none f >>= fun ch => .ok (.modify h ch)

theorem stagesTarget_modifyTrip : StagesTarget stagedModifyTrip stagedChanges := by
  intro f s
  simp only [stagedModifyTrip, stagedChanges, bind_assoc, verdict_ok_bind, verdict_pure]

/-- The operation that a staged request with a target stages. -/
def stagedOpOf : Instr → Frame → Handle → Verdict StagedOp
  | .stagedModifyTrip => stagedChanges
  | .stagedRetireTrip => fun _ h => .ok (.retire h)
  | .stagedHoldTrip => fun _ h => .ok (.hold h)
  | _ => fun _ h => .ok (.arm h)

theorem stagedTarget_rows :
    ∀ row ∈ [(Instr.stagedModifyTrip, 2), (.stagedRetireTrip, 3), (.stagedHoldTrip, 4), (.stagedArmTrip, 5)],
      ∃ claim, StagedRow claim row.1 row.2 ∧ StagesTarget claim (stagedOpOf row.1) := by
  simp only [List.forall_mem_cons, List.not_mem_nil, false_imp_iff, implies_true, and_true]
  exact ⟨⟨_, stagedRow_of_serve (fun _ => rfl) fun _ _ => ⟨_, rfl⟩, stagesTarget_modifyTrip⟩,
    ⟨_, stagedRow_of_serve (fun _ => rfl) fun _ _ => ⟨_, rfl⟩, fun _ _ => rfl⟩,
    ⟨_, stagedRow_of_serve (fun _ => rfl) fun _ _ => ⟨_, rfl⟩, fun _ _ => rfl⟩,
    ⟨_, stagedRow_of_serve (fun _ => rfl) fun _ _ => ⟨_, rfl⟩, fun _ _ => rfl⟩⟩

section Target

variable {claim : Frame → State → Verdict (State × Reply)} {op : Frame → Handle → Verdict StagedOp} (hclaim : StagesTarget claim op)
  {f : Frame} {s : State} (hopen : s.manager.batchOpen = true) (hroom : s.manager.staging.length < 24)
include hclaim hopen hroom

theorem StagesTarget.of_bad_slot (hslot : 384 ≤ u16 f 3 / 64) : claim f s = .error (badField 3 7) := by
  rw [hclaim, stagingOpen_of_room hopen hroom, (handleAt_eq_none_iff f 3).2 hslot]
  rfl

theorem StagesTarget.of_handle {h : Handle} (hh : handleAt f 3 = some h) :
    claim f s = (op f h >>= fun x => .ok (stage f x [] s)) := by
  rw [hclaim, stagingOpen_of_room hopen hroom, hh, fieldOr_some, verdict_ok_bind, verdict_ok_bind]

end Target

/-- What a staged operation leaves (R179). -/
theorem answer_stage (f : Frame) (op : StagedOp) (s : State) :
    answer f (.ok (stage f op [] s)) s =
      answered f .staged (be8 s.manager.staging.length)
        { s with manager := { s.manager with staging := s.manager.staging ++ [⟨op, byteAt f 1⟩] } } := by
  rw [stage, answer_ok, List.append_nil, respond_one]

/-- Settles O26. -/
theorem stagedRequestsJoinTheStagingList : Obligations.StagedRequestsJoinTheStagingList := by
  refine ⟨fun s f hf hb => ?_, fun s f c code hmem hf hb => ?_⟩
  · obtain ⟨hclosed, hfull⟩ := stagedRow_addTrip.refuses hf hb
    refine ⟨hclosed, hfull, fun hopen hroom => ⟨fun e he => ?_, fun fields hread => stagedAddTrip_outcome hf hb hopen hroom hread⟩⟩
    rw [stagedRow_addTrip.exec_eq s f hf hb, stagedAddTrip_of_room hopen hroom, he]
    rfl
  · obtain ⟨claim, hrow, hclaim⟩ := stagedTarget_rows _ hmem
    obtain ⟨hclosed, hfull⟩ := hrow.refuses hf hb
    refine ⟨hclosed, hfull, fun hopen hroom hslot => ?_, fun h hh hopen hroom => ?_⟩
    · rw [hrow.exec_eq s f hf hb, hclaim.of_bad_slot hopen hroom hslot]
      rfl
    intro staged
    rw [hrow.exec_eq s f hf hb, hclaim.of_handle hopen hroom hh]
    refine ⟨?_, ?_, ?_, ?_⟩ <;> rintro rfl
    · exact congrArg _ (answer_stage f (.retire h) s)
    · exact congrArg _ (answer_stage f (.hold h) s)
    · exact congrArg _ (answer_stage f (.arm h) s)
    · refine ⟨fun e he => ?_, fun hentries => ⟨fun e he => ?_, fun ch hread => ?_⟩⟩ <;>
        simp only [stagedOpOf, stagedChanges]
      · rw [he]
        rfl
      · rw [hentries, he]
        rfl
      · rw [hentries, hread]
        exact congrArg _ (answer_stage f (.modify h ch) s)

/-! ### COMMIT_BATCH -/

/-- Entries that all pass are followed by the entry after them (R186). -/
theorem commitEntries_append {cfg : AxisNo → AxisConfig} {k : Nat} {before rest : List StagedEntry} {st st' : Store}
    {lowered lowered' : List Handle} (h : commitEntries cfg k before st lowered = .passed st' lowered') :
    commitEntries cfg k (before ++ rest) st lowered = commitEntries cfg (k + before.length) rest st' lowered' := by
  induction before generalizing k st lowered with
  | nil => cases h; rfl
  | cons e before ih =>
    rw [List.cons_append, commitEntries]
    rw [commitEntries] at h
    cases he : commitEntry cfg e.op st with
    | error why => rw [he] at h; cases h
    | ok x =>
      rw [he] at h
      rw [List.length_cons, Nat.add_comm before.length, ← Nat.add_assoc]
      exact ih h

theorem commitEntries_of_error {cfg : AxisNo → AxisConfig} {k : Nat} {e : StagedEntry} {rest : List StagedEntry} {st : Store}
    {lowered : List Handle} {why : Refused} (h : commitEntry cfg e.op st = .error why) :
    commitEntries cfg k (e :: rest) st lowered = .failed k e.tag why := by
  rw [commitEntries, h]

theorem exec_commitBatch {s : State} {f : Frame} (hf : InProgress s f 13) (hb : batchFlag f = false) :
    exec .commitBatch s =
      .next (answer f (require s.manager.batchOpen (refuse .noBatch) >>= fun _ =>
        match commitEntries (configs s) 0 s.manager.staging s.store [] with
        | .failed k tag why =>
          .ok (setStore (settle (unreserve s.store)) (closeBatch s), ⟨.commitFailed, [commitFailedItems k tag why]⟩)
        | .passed st lowered =>
          .ok (storeReply (closeBatch s) (lowered.foldl (fun st h => releaseCheck h st) st) (be8 s.manager.staging.length))) s) := by
  change serve (requestOf 13 s) commitBatch s = _
  rw [serve_of_some commitBatch s (requestOf_of_inProgress hf), commitBatch, noBatchFlag_of_clear hb, verdict_ok_bind]
  rfl

/-- Settles O27. -/
theorem commitBatchAppliesAllOrNothing : Obligations.CommitBatchAppliesAllOrNothing := by
  intro s f hf hb cfg closed
  rw [exec_commitBatch hf hb]
  refine ⟨fun hopen => ?_, fun hopen st lowered hpass => ?_, fun hopen before e after st lowered why hstaging hpass hfail => ?_⟩ <;>
    rw [hopen]
  · rfl
  · have hpass : commitEntries (configs s) 0 s.manager.staging s.store [] = .passed st lowered := hpass
    rw [hpass]
    rfl
  · have hresult : commitEntries (configs s) 0 s.manager.staging s.store [] = .failed before.length e.tag why := by
      rw [hstaging]
      exact (commitEntries_append hpass).trans (by rw [commitEntries_of_error hfail, Nat.zero_add])
    obtain ⟨hslots, hlists, hocc, hax⟩ := unreserved_unreserve s.store
    refine ⟨unreserve s.store, ?_, hslots, hlists, hocc, hax⟩
    rw [hresult]
    rfl

end Sys2Proof.Machine
end

section
/-! The entries of a batch: judged in order, and each doing at the store what its direct request does (O28). -/

namespace Sys2Proof.Machine

/-! ### What a completion with DONE says of the claim -/

/-- The checks refuse with a code of their own, never with DONE. -/
def NeverDone {α : Type} (v : Verdict α) : Prop := ∀ e, v = .error e → e.code ≠ .done

theorem neverDone_ok {α : Type} (x : α) : NeverDone (.ok x : Verdict α) := nofun

theorem neverDone_bind {α β : Type} {v : Verdict α} {k : α → Verdict β} (hv : NeverDone v) (hk : ∀ x, NeverDone (k x)) :
    NeverDone (v >>= k) := by
  cases v with
  | error e => rintro _ ⟨⟩; exact hv e rfl
  | ok x => exact hk x

theorem neverDone_require {b : Bool} {r : Refused} (hr : r.code ≠ .done) : NeverDone (require b r) := by
  cases b
  · rintro _ ⟨⟩; exact hr
  · exact neverDone_ok ()

theorem neverDone_fieldOr {α : Type} (byte bit : Nat) (o : Option α) : NeverDone (fieldOr byte bit o) := by
  cases o
  · rintro _ ⟨⟩; exact nofun
  · exact neverDone_ok _

theorem neverDone_resolve (st : Store) (h : Handle) : NeverDone (resolve st h) := by
  unfold resolve
  split
  next => rintro _ ⟨⟩; exact nofun
  next => split <;> (rintro _ ⟨⟩; exact nofun)
  next =>
    split
    · exact neverDone_ok _
    · rintro _ ⟨⟩; exact nofun

theorem neverDone_target (f : Frame) (st : Store) : NeverDone (target f st) :=
  neverDone_bind (neverDone_fieldOr _ _ _) fun _ => neverDone_bind (neverDone_resolve _ _) fun _ => neverDone_ok _

theorem neverDone_setState (next : RecordState) (h : Handle) (r : TripRecord) (st : Store) :
    NeverDone (setState next h r st) :=
  neverDone_bind (neverDone_require nofun) fun _ => neverDone_ok _

theorem neverDone_setField {α : Type} (e byte bit : Nat) (o : Option α) : NeverDone (setField e byte bit o) := by
  unfold setField optionalField
  split
  · exact neverDone_bind (neverDone_fieldOr _ _ _) fun _ => neverDone_ok _
  · exact neverDone_ok _

theorem neverDone_changeField {α : Type} (e byte bit : Nat) (o : Option α) : NeverDone (changeField e byte bit o) := by
  unfold changeField
  split
  · exact neverDone_bind (neverDone_fieldOr _ _ _) fun _ => neverDone_ok _
  · exact neverDone_ok _

theorem neverDone_checkEntries (f : Frame) : NeverDone (checkEntries f) := by
  unfold checkEntries
  split
  · rintro _ ⟨⟩; exact nofun
  · exact neverDone_ok ()

theorem neverDone_readChanges (judge : Option (AxisConfig × TripRecord)) (f : Frame) : NeverDone (readChanges judge f) :=
  neverDone_bind (neverDone_require nofun) fun _ => neverDone_bind (neverDone_setField _ _ _ _) fun _ =>
  neverDone_bind (neverDone_setField _ _ _ _) fun _ => neverDone_bind (neverDone_setField _ _ _ _) fun _ =>
  neverDone_bind (neverDone_changeField _ _ _ _) fun _ => neverDone_bind (neverDone_require nofun) fun _ =>
  neverDone_bind (neverDone_changeField _ _ _ _) fun _ => neverDone_bind (neverDone_require nofun) fun _ =>
  neverDone_bind (neverDone_changeField _ _ _ _) fun _ => neverDone_bind (neverDone_changeField _ _ _ _) fun _ =>
  neverDone_bind (neverDone_changeField _ _ _ _) fun _ => neverDone_bind (neverDone_setField _ _ _ _) fun _ =>
  neverDone_bind (neverDone_setField _ _ _ _) fun _ => neverDone_ok _

theorem neverDone_checkSuccessor (h : Handle) (ch : Changes) (st : Store) : NeverDone (checkSuccessor h ch st) := by
  refine neverDone_bind (neverDone_require nofun) fun _ => ?_
  unfold successorLive
  split
  · exact neverDone_require nofun
  · exact neverDone_ok ()

theorem neverDone_retireTrip (f : Frame) (s : State) : NeverDone (retireTrip f s) :=
  neverDone_bind (neverDone_target f s.store) fun _ => neverDone_bind (neverDone_require nofun) fun _ => neverDone_ok _

theorem SetsState.neverDone {claim : Frame → State → Verdict (State × Reply)} {new : RecordState} (h : SetsState claim new)
    (f : Frame) (s : State) : NeverDone (claim f s) := by
  rw [h]
  exact neverDone_bind (neverDone_target f s.store) fun _ => neverDone_bind (neverDone_setState _ _ _ _) fun _ => neverDone_ok _

theorem neverDone_modifyTrip (f : Frame) (s : State) : NeverDone (modifyTrip f s) :=
  neverDone_bind (neverDone_target f s.store) fun _ => neverDone_bind (neverDone_checkEntries f) fun _ =>
  neverDone_bind (neverDone_require nofun) fun _ => neverDone_bind (neverDone_readChanges _ f) fun _ =>
  neverDone_bind (neverDone_checkSuccessor _ _ _) fun _ => neverDone_ok _

/-- A request whose last response part says DONE was granted. -/
theorem RecordRow.granted_of_done {claim : Frame → State → Verdict (State × Reply)} {c : Instr} {code : Nat}
    (hrow : RecordRow claim c code) {s t : State} {f : Frame} (hclaim : NeverDone (claim f s)) (hf : InProgress s f code)
    (hb : batchFlag f = false) (hexec : exec c s = .next t)
    (hdone : t.port.responseQueue.getLast?.map (·.completion) = some .done) :
    ∃ u r, claim f s = .ok (u, r) ∧ t.store = u.store := by
  rw [hrow s f hf hb] at hexec
  cases hexec
  cases hv : claim f s with
  | error e =>
    rw [hv] at hdone
    simp only [answer_error, Machine.answered, completedWith, List.getLast?_append, List.getLast?_singleton, Option.some_or,
      Option.map_some, partOf, Option.some.injEq] at hdone
    exact absurd hdone (hclaim e hv)
  | ok x => exact ⟨x.1, x.2, rfl, rfl⟩

/-! ### Committed entries and their direct requests -/

/-- The values of a MODIFY-TRIP that a target's checks admit are those read without a target, and pass its checks at commit (R187). -/
theorem readChanges_of_judged {c : AxisConfig} {r : TripRecord} {f : Frame} {ch : Changes}
    (h : readChanges (some (c, r)) f = .ok ch) : readChanges none f = .ok ch ∧ judgeChanges c r ch = .ok () := by
  simp only [readChanges, judgeChanges, verdict_bind_eq_ok_iff, require_ok_iff, Option.all_some, Option.all_none, exists_const,
    verdict_pure, Except.ok.injEq, true_and] at h ⊢
  obtain ⟨hpos, q, hq, a, ha, l, hl, w, hw, hwidth, p, hp, hpitch, hrest⟩ := h
  refine ⟨⟨q, hq, a, ha, l, hl, w, hw, p, hp, hrest⟩, ?_⟩
  obtain ⟨_, -, _, -, _, -, _, -, _, -, rfl⟩ := hrest
  exact ⟨hpos, hwidth, hpitch⟩

section Commit

variable {cfg : AxisNo → AxisConfig} {st : Store} {h : Handle} {r : TripRecord}

theorem commitEntry_modify_of_live (hr : liveAs st h = some r) (ch : Changes) :
    commitEntry cfg (.modify h ch) st =
      (require (decide (r.state ≠ .spent)) (refuse .wrongState) >>= fun _ => judgeChanges (cfg r.axis) r ch >>= fun _ =>
        checkSuccessor h ch st >>= fun _ => .ok (modifyRecord h r ch st, formerSuccessor r ch)) := by
  change commitModify cfg h ch st = _
  rw [commitModify, (resolve_eq_ok_iff _ _ _).2 hr, verdict_ok_bind]
  rfl

theorem commitEntry_retire_of_live (hr : liveAs st h = some r) :
    commitEntry cfg (.retire h) st =
      (require (decide (r.predCount = 0)) (refuse .inUse) >>= fun _ => .ok (retireRecord h r st, r.successor)) := by
  change commitRetire h st = _
  rw [commitRetire, (resolve_eq_ok_iff _ _ _).2 hr, verdict_ok_bind]
  rfl

/-- The entry sets the state of its target (R166). -/
def StateEntry (op : StagedOp) (h : Handle) (new : RecordState) : Prop :=
  ∀ cfg st, commitEntry cfg op st = (resolve st h >>= fun r => setState new h r st >>= fun st => .ok (st, none))

theorem stateEntry_hold (h : Handle) : StateEntry (.hold h) h .held := fun _ st => by
  change (commitState .held h st >>= _) = _
  rw [commitState, bind_assoc]
  rfl

theorem stateEntry_arm (h : Handle) : StateEntry (.arm h) h .armed := fun _ st => by
  change (commitState .armed h st >>= _) = _
  rw [commitState, bind_assoc]
  rfl

theorem StateEntry.of_direct {op : StagedOp} {new : RecordState} (hop : StateEntry op h new)
    {claim : Frame → State → Verdict (State × Reply)} (hclaim : SetsState claim new) {f : Frame} {s u : State} {x : Reply}
    (hh : handleAt f 3 = some h) (hok : claim f s = .ok (u, x)) :
    ∃ st, commitEntry cfg op s.store = .ok (st, none) ∧ u.store = settle st := by
  rw [hclaim] at hok
  obtain ⟨⟨k, r⟩, htarget, hok⟩ := verdict_bind_eq_ok hok
  obtain ⟨hk, hr⟩ := target_eq_ok_iff.1 htarget
  cases hh.symm.trans hk
  obtain ⟨st, hst, hok⟩ := verdict_bind_eq_ok hok
  cases hok
  refine ⟨st, ?_, rfl⟩
  rw [hop, (resolve_eq_ok_iff _ _ _).2 hr, verdict_ok_bind, hst, verdict_ok_bind]

end Commit

theorem commit_of_retireTrip {cfg : AxisNo → AxisConfig} {f : Frame} {s u : State} {x : Reply} {h : Handle}
    (hh : handleAt f 3 = some h) (hok : retireTrip f s = .ok (u, x)) :
    ∃ st o, commitEntry cfg (.retire h) s.store = .ok (st, o) ∧ u.store = settle (releaseCheckOf o st) := by
  obtain ⟨⟨k, r⟩, htarget, hok⟩ := verdict_bind_eq_ok hok
  obtain ⟨hk, hr⟩ := target_eq_ok_iff.1 htarget
  cases hh.symm.trans hk
  obtain ⟨_, hpred, hok⟩ := verdict_bind_eq_ok hok
  cases hok
  refine ⟨retireRecord h r s.store, r.successor, ?_, rfl⟩
  rw [commitEntry_retire_of_live hr, require_ok_iff.1 hpred]
  rfl

theorem commit_of_modifyTrip {f : Frame} {s u : State} {x : Reply} {h : Handle}
    (hh : handleAt f 3 = some h) (hok : modifyTrip f s = .ok (u, x)) :
    ∃ ch st o, readChanges none f = .ok ch ∧ commitEntry (configs s) (.modify h ch) s.store = .ok (st, o) ∧
      u.store = settle (releaseCheckOf o st) := by
  obtain ⟨⟨k, r⟩, htarget, hok⟩ := verdict_bind_eq_ok hok
  obtain ⟨hk, hr⟩ := target_eq_ok_iff.1 htarget
  cases hh.symm.trans hk
  obtain ⟨_, -, hok⟩ := verdict_bind_eq_ok hok
  obtain ⟨_, hstate, hok⟩ := verdict_bind_eq_ok hok
  obtain ⟨ch, hread, hok⟩ := verdict_bind_eq_ok hok
  obtain ⟨_, hsucc, hok⟩ := verdict_bind_eq_ok hok
  cases hok
  obtain ⟨hnone, hjudged⟩ := readChanges_of_judged hread
  refine ⟨ch, modifyRecord h r ch s.store, formerSuccessor r ch, hnone, ?_, rfl⟩
  rw [commitEntry_modify_of_live hr, require_ok_iff.1 hstate, require_true, verdict_ok_bind, hjudged, verdict_ok_bind, hsucc]
  rfl

/-! ### Refused entries -/

theorem commitEntry_of_unresolved {cfg : AxisNo → AxisConfig} {st : Store} {h : Handle} {e : Refused} (he : resolve st h = .error e)
    (ch : Changes) : ∀ op ∈ [StagedOp.modify h ch, .retire h, .hold h, .arm h], commitEntry cfg op st = .error e := by
  simp only [List.forall_mem_cons, List.not_mem_nil, false_imp_iff, implies_true, and_true]
  refine ⟨?_, ?_, ?_, ?_⟩
  · change commitModify cfg h ch st = _
    rw [commitModify, he, verdict_error_bind]
  · change commitRetire h st = _
    rw [commitRetire, he, verdict_error_bind]
  · rw [stateEntry_hold, he, verdict_error_bind]
  · rw [stateEntry_arm, he, verdict_error_bind]

theorem commitEntry_of_spent {cfg : AxisNo → AxisConfig} {st : Store} {h : Handle} {r : TripRecord} (hr : liveAs st h = some r)
    (hspent : r.state = .spent) (ch : Changes) :
    ∀ op ∈ [StagedOp.modify h ch, .hold h, .arm h], commitEntry cfg op st = .error (refuse .wrongState) := by
  have hstate : decide (r.state ≠ .spent) = false := decide_eq_false (not_not.2 hspent)
  simp only [List.forall_mem_cons, List.not_mem_nil, false_imp_iff, implies_true, and_true]
  refine ⟨?_, ?_, ?_⟩
  · rw [commitEntry_modify_of_live hr, hstate]
    rfl
  · rw [stateEntry_hold, (resolve_eq_ok_iff _ _ _).2 hr, verdict_ok_bind, setState, hstate]
    rfl
  · rw [stateEntry_arm, (resolve_eq_ok_iff _ _ _).2 hr, verdict_ok_bind, setState, hstate]
    rfl

theorem positionFits_eq_false_iff (sp : Span) (o : Option Int) :
    positionFits sp o = false ↔ ∃ p, o = some p ∧ inRange sp p = false := by
  cases o <;> simp [positionFits]

/-- The pitch that a change carries is 0 or above the greatest of the axis. -/
def BadPitch (sp : Span) (c : Change Nat) : Prop :=
  ∃ v, c = .set v ∧ (v = 0 ∨ (match sp with
    | .linear => 1073741824
    | .rotary m => m - 1) < v)

theorem pitchFits_eq_false_iff (sp : Span) (c : Change Nat) : pitchFits sp c = false ↔ BadPitch sp c := by
  have hmax : maxPitch sp = (match sp with
    | .linear => 1073741824
    | .rotary m => m - 1) := by cases sp <;> rfl
  cases c with
  | set v =>
    simp only [pitchFits, BadPitch, ← hmax, Change.set.injEq, exists_eq_left', decide_eq_false_iff_not]
    omega
  | keep => simp [pitchFits, BadPitch]
  | remove => simp [pitchFits, BadPitch]

theorem commitModify_refusals {cfg : AxisNo → AxisConfig} {st : Store} {h : Handle} {r : TripRecord} (hr : liveAs st h = some r)
    (hstate : r.state ≠ .spent) (ch : Changes) :
    let sp := (cfg r.axis).span
    let badPosition := ∃ p, ch.position = some p ∧ inRange sp p = false
    let fitsWidth := widthFits (ch.action.getD r.action) (applyChange ch.width r.width) = true
    let badLink := ch.successor = .set h ∨ ∃ k, ch.successor = .set k ∧ liveAs st k = none
    (badPosition → commitEntry cfg (.modify h ch) st = .error (badField 10 7)) ∧
    (¬ badPosition → ¬ fitsWidth → commitEntry cfg (.modify h ch) st = .error (badField 16 7)) ∧
    (¬ badPosition → fitsWidth → BadPitch sp ch.pitch → commitEntry cfg (.modify h ch) st = .error (badField 18 7)) ∧
    (¬ badPosition → fitsWidth → ¬ BadPitch sp ch.pitch → badLink →
      commitEntry cfg (.modify h ch) st = .error (refuse .badLink)) := by
  intro sp badPosition fitsWidth badLink
  have hpos : positionFits (cfg r.axis).span ch.position = false ↔ badPosition := positionFits_eq_false_iff _ _
  have hpitch : pitchFits (cfg r.axis).span ch.pitch = false ↔ BadPitch sp ch.pitch := pitchFits_eq_false_iff _ _
  have hwidth : widthAfterFits r ch.action ch.width = true ↔ fitsWidth := Iff.rfl
  rw [← hpos, ← hpitch, ← hwidth, commitEntry_modify_of_live hr, decide_eq_true hstate, require_true, verdict_ok_bind]
  simp only [Bool.not_eq_true, Bool.not_eq_false]
  unfold judgeChanges
  refine ⟨fun h1 => ?_, fun h1 h2 => ?_, fun h1 h2 h3 => ?_, fun h1 h2 h3 hlink => ?_⟩
  · rw [h1]
    rfl
  · rw [h1, h2]
    rfl
  · rw [h1, h2, h3]
    rfl
  · rw [h1, h2, h3, checkSuccessor_eq_error hlink]
    rfl

/-! ### A committed ADD -/

theorem commitEntry_add {cfg : AxisNo → AxisConfig} {st : Store} {fields : TripFields} {h : Handle} {r : TripRecord}
    (hres : st.slots[h.slot] = ⟨h.gen, .reserved r⟩) :
    commitEntry cfg (.add fields h) st =
      (successorLive st r.successor >>= fun _ => .ok (enliven h.slot r st, none)) := by
  change (commitAdd h st >>= _) = _
  have hc : st.slots[h.slot].content = .reserved r := congrArg Slot.content hres
  simp only [commitAdd, hc]
  cases successorLive st r.successor <;> rfl

/-- Settles O28. -/
theorem committedEntryActsLikeItsDirectRequest : Obligations.CommittedEntryActsLikeItsDirectRequest := by
  refine ⟨fun cfg k e rest st lowered => ⟨rfl, fun why => commitEntries_of_error, fun st' o hok => ?_⟩,
    fun s t f h hb hh hdone => ?_, fun cfg st h ch => ⟨fun op hop => ?_, fun r hr => ⟨fun hpred => ?_, fun hspent => ?_,
      fun hstate => ?_⟩⟩, fun cfg st fields h r hres => ?_⟩
  · rw [commitEntries, hok]
  · refine ⟨fun hf hexec => ?_, fun hf hexec => ?_, fun hf hexec => ?_, fun hf hexec => ?_⟩
    · obtain ⟨u, x, hok, hstore⟩ := exec_retireTrip.granted_of_done (neverDone_retireTrip f s) hf hb hexec hdone
      rw [hstore]
      exact commit_of_retireTrip hh hok
    · have hclaim : SetsState holdTrip .held := fun _ _ => rfl
      obtain ⟨u, x, hok, hstore⟩ := exec_holdTrip.granted_of_done (hclaim.neverDone f s) hf hb hexec hdone
      rw [hstore]
      exact (stateEntry_hold h).of_direct hclaim hh hok
    · have hclaim : SetsState armTrip .armed := fun _ _ => rfl
      obtain ⟨u, x, hok, hstore⟩ := exec_armTrip.granted_of_done (hclaim.neverDone f s) hf hb hexec hdone
      rw [hstore]
      exact (stateEntry_arm h).of_direct hclaim hh hok
    · obtain ⟨u, x, hok, hstore⟩ := exec_modifyTrip.granted_of_done (neverDone_modifyTrip f s) hf hb hexec hdone
      rw [hstore]
      exact commit_of_modifyTrip hh hok
  · exact ⟨fun hstale => commitEntry_of_unresolved (resolve_eq_stale hstale) ch op hop,
      fun hg hres => commitEntry_of_unresolved (resolve_eq_notLive hg hres) ch op hop⟩
  · rw [commitEntry_retire_of_live hr, decide_eq_false hpred]
    rfl
  · exact commitEntry_of_spent hr hspent ch
  · exact commitModify_refusals hr hstate ch
  · have hown : liveAt st h.slot = none := by
      rw [liveAt, hres]
    rw [commitEntry_add hres]
    refine ⟨fun hbad => ?_, fun hself => ⟨h, hself, ?_⟩, fun hsucc => ?_⟩
    · rw [successorLive_eq_error hbad]
      rfl
    · rw [← Option.not_isSome_iff_eq_none, Option.isSome_iff_exists]
      rintro ⟨x, hx⟩
      rw [((liveAs_eq_some_iff _ _ _).1 hx).2] at hown
      cases hown
    · have hst := enlivened (r := r) hown hsucc
      refine ⟨enliven h.slot r st, ?_, ?_, hst.others, hst.lists, hst.occupancy, hst.axisNotices⟩
      · rw [successorLive_eq_ok hsucc]
        rfl
      · rw [hst.own, hres]

end Sys2Proof.Machine
end

section
/-! The order of a walk (O41), and the chain of a release check (O46). -/

namespace Sys2Proof.Machine

/-! ### The records of a walk -/

theorem metSet_singleton (st : Store) (n : AxisNo) (d : Travel) (x : Stretch) :
    metSet st n d [x] = (readOrder d st.lists[n]).filter fun i => inStretch (positionOf st i) x := by
  simp [metSet]

/-- Settles O41: a walk filters its list, forward or backward, part by part. -/
theorem walkMeetsTheIntervalInWalkOrder : Obligations.WalkMeetsTheIntervalInWalkOrder := by
  refine ⟨fun st n d x hnodup hsorted => ?_, fun st n d first second => List.flatMap_append⟩
  intro met
  have hmet : met = (readOrder d st.lists[n]).filter fun i => inStretch (positionOf st i) x := metSet_singleton st n d x
  rw [hmet]
  refine ⟨(nodup_readOrder hnodup).filter _, fun i => ?_, ?_, ?_⟩
  · rw [List.mem_filter, mem_readOrder, inStretch_iff]
  · rintro rfl
    exact ⟨List.filter_sublist, hsorted.filter _⟩
  · rintro rfl
    exact ⟨List.filter_sublist, (List.pairwise_reverse.2 hsorted).filter _⟩

/-! ### A release check -/

/-- The slot with `n` taken from the predecessor count of its LIVE record. -/
def lowerBy (n : Nat) (sl : Slot) : Slot :=
  match sl.content with
  | .live r => ⟨sl.gen, .live { r with predCount := r.predCount - n }⟩
  | .free | .reserved _ => sl

theorem gen_lowerBy (n : Nat) (sl : Slot) : (lowerBy n sl).gen = sl.gen := by
  unfold lowerBy
  split <;> rfl

theorem lowerBy_zero (sl : Slot) : lowerBy 0 sl = sl := by
  unfold lowerBy
  split
  next h => rw [Nat.sub_zero, ← h]
  all_goals rfl

theorem lowerBy_lowerBy (m n : Nat) (sl : Slot) : lowerBy n (lowerBy m sl) = lowerBy (m + n) sl := by
  obtain ⟨g, c⟩ := sl
  cases c <;> simp [lowerBy, Nat.sub_sub]

theorem relinked_none_eq_lowerBy (o : Option Handle) (st : Store) (j : SlotNo) :
    relinked o none st j = lowerBy (if o = some (handleOf st j) then 1 else 0) st.slots[j] := by
  by_cases ho : o = some (handleOf st j)
  · subst ho
    simp only [relinked, lowerBy, if_true]
    split <;> simp_all
  · rw [relinked_of_ne (by simp) ho, if_neg ho, lowerBy_zero]

theorem liveAt_of_lowerBy {st st' : Store} {j : SlotNo} {n : Nat} (h : st'.slots[j] = lowerBy n st.slots[j]) :
    liveAt st' j = (liveAt st j).map fun r => { r with predCount := r.predCount - n } := by
  unfold liveAt
  rw [h]
  generalize st.slots[j] = sl
  obtain ⟨g, c⟩ := sl
  cases c <;> rfl

theorem handleOf_of_lowerBy {st st' : Store} {j : SlotNo} {n : Nat} (h : st'.slots[j] = lowerBy n st.slots[j]) :
    handleOf st' j = handleOf st j := by
  rw [handleOf, handleOf, h, gen_lowerBy]

/-- The records of `chain` with property `p`, counted. -/
def chainCount (st : Store) (chain : List SlotNo) (p : TripRecord → Bool) : Nat :=
  chain.countP fun i => match liveAt st i with
    | some r => p r
    | none => false

/-- The record names the record of slot `i` as its successor. -/
def namesSlot (st : Store) (i : SlotNo) (r : TripRecord) : Bool :=
  decide (r.successor = some (handleOf st i))

/-- What a release check leaves when the slots of `chain` are those it frees (R21, R22). -/
structure Frees (st : Store) (chain : List SlotNo) (st' : Store) : Prop where
  nodup : chain.Nodup
  freed : ∀ i ∈ chain, st'.slots[i] = ⟨st.slots[i].gen + 1, .free⟩ ∧
    ∃ r, liveAt st i = some r ∧ r.state = .spent ∧ r.endMode = .release ∧ r.pending = ⟨false, false, false⟩ ∧
      r.predCount ≤ chainCount st chain (namesSlot st i)
  kept : ∀ i ∉ chain, st'.slots[i] = lowerBy (chainCount st chain (namesSlot st i)) st.slots[i]
  occupancy : ∀ n : AxisNo, st'.occupancy[n] = st.occupancy[n] - chainCount st chain fun r => decide (r.axis = n)
  lists : st'.lists = st.lists
  axisNotices : st'.axisNotices = st.axisNotices
  attention : st'.attention = st.attention

theorem Frees.nil (st : Store) : Frees st [] st where
  nodup := List.nodup_nil
  freed := by simp
  kept i _ := (lowerBy_zero _).symm
  occupancy _ := rfl
  lists := rfl
  axisNotices := rfl
  attention := rfl

/-- The store once one record of a release check is freed, and its successor no longer counts it. -/
def freedOne (h : Handle) (r : TripRecord) (st : Store) : Store :=
  unlink r.successor (freeSlot h.slot st)

section FreedOne

variable {st : Store} {h : Handle} {r : TripRecord} (hr : liveAs st h = some r)
include hr

theorem slots_freedOne_self : (freedOne h r st).slots[h.slot] = ⟨st.slots[h.slot].gen + 1, .free⟩ := by
  have hlive := ((liveAs_eq_some_iff _ _ _).1 hr).2
  rw [freedOne, slots_unlink, relinked_of_not_live]
  · rw [freeSlot_of_live hlive, getElem_put_self]
  · rw [liveAt_freeSlot hlive, if_pos rfl]

theorem slots_freedOne_of_ne {j : SlotNo} (hj : j ≠ h.slot) :
    (freedOne h r st).slots[j] = lowerBy (if namesSlot st j r then 1 else 0) st.slots[j] := by
  have hlive := ((liveAs_eq_some_iff _ _ _).1 hr).2
  rw [freedOne, slots_unlink, freeSlot_of_live hlive, relinked_congr (getElem_put_ne _ _ _ _ hj), relinked_none_eq_lowerBy]
  simp only [namesSlot, decide_eq_true_eq]

theorem occupancy_freedOne (n : AxisNo) :
    (freedOne h r st).occupancy[n] = st.occupancy[n] - if r.axis = n then 1 else 0 := by
  rw [freedOne, unlink_frame, freeSlot_of_live ((liveAs_eq_some_iff _ _ _).1 hr).2]
  by_cases hn : r.axis = n
  · subst hn
    rw [if_pos rfl]
    exact getElem_put_self _ _ _
  · rw [if_neg hn]
    exact getElem_put_ne _ _ _ _ (Ne.symm hn)

theorem liveAt_freedOne_self : liveAt (freedOne h r st) h.slot = none :=
  liveAt_eq_none_of_free (by rw [slots_freedOne_self hr])

theorem frame_freedOne :
    (freedOne h r st).lists = st.lists ∧ (freedOne h r st).axisNotices = st.axisNotices ∧
      (freedOne h r st).attention = st.attention := by
  rw [freedOne, unlink_frame, freeSlot_of_live ((liveAs_eq_some_iff _ _ _).1 hr).2]
  exact ⟨rfl, rfl, rfl⟩

/-- What is counted of other slots, by a property that reads no predecessor count, is counted as before. -/
theorem chainCount_freedOne {chain : List SlotNo} (hchain : h.slot ∉ chain) {p : TripRecord → Bool}
    (hp : ∀ x n, p { x with predCount := n } = p x) : chainCount (freedOne h r st) chain p = chainCount st chain p := by
  refine List.countP_congr fun j hj => ?_
  have hne : j ≠ h.slot := fun e => hchain (e ▸ hj)
  rw [liveAt_of_lowerBy (slots_freedOne_of_ne hr hne)]
  cases liveAt st j with
  | none => exact Iff.rfl
  | some x => exact iff_of_eq (congrArg (· = true) (hp x _))

theorem chainCount_cons (chain : List SlotNo) (p : TripRecord → Bool) :
    chainCount st (h.slot :: chain) p = (if p r then 1 else 0) + chainCount st chain p := by
  have hlive := ((liveAs_eq_some_iff _ _ _).1 hr).2
  simp only [chainCount, List.countP_cons, hlive]
  exact Nat.add_comm _ _

theorem chainCount_namesSlot_freedOne {chain : List SlotNo} (hchain : h.slot ∉ chain) {i : SlotNo} (hi : i ≠ h.slot) :
    chainCount st (h.slot :: chain) (namesSlot st i) =
      (if namesSlot st i r then 1 else 0) + chainCount (freedOne h r st) chain (namesSlot (freedOne h r st) i) := by
  have hnames : namesSlot (freedOne h r st) i = namesSlot st i :=
    funext fun x => by rw [namesSlot, namesSlot, handleOf_of_lowerBy (slots_freedOne_of_ne hr hi)]
  rw [chainCount_cons hr, hnames, chainCount_freedOne hr hchain (p := namesSlot st i) fun _ _ => rfl]

end FreedOne

theorem Frees.cons {st st' : Store} {h : Handle} {r : TripRecord} {chain : List SlotNo} (hr : liveAs st h = some r)
    (hrel : releasable r = true) (htail : Frees (freedOne h r st) chain st') : Frees st (h.slot :: chain) st' := by
  obtain ⟨hspent, hend, hkinds, hcount⟩ := (releasable_iff r).1 hrel
  have hnot : h.slot ∉ chain := by
    intro hmem
    obtain ⟨-, x, hx, -⟩ := htail.freed _ hmem
    rw [liveAt_freedOne_self hr] at hx
    cases hx
  obtain ⟨hlists, hax, hatt⟩ := frame_freedOne hr
  constructor
  · exact List.nodup_cons.2 ⟨hnot, htail.nodup⟩
  · intro i hi
    by_cases hself : i = h.slot
    · subst hself
      refine ⟨?_, r, ((liveAs_eq_some_iff _ _ _).1 hr).2, hspent, hend, (noKinds_iff _).1 hkinds, by omega⟩
      rw [htail.kept _ hnot, slots_freedOne_self hr]
      rfl
    · have hslot := slots_freedOne_of_ne hr hself
      obtain ⟨hfree, x, hx, hs, he, hk, hc⟩ := htail.freed i ((List.mem_cons.1 hi).resolve_left hself)
      rw [liveAt_of_lowerBy hslot, Option.map_eq_some_iff] at hx
      obtain ⟨y, hy, rfl⟩ := hx
      rw [hfree, hslot, gen_lowerBy]
      refine ⟨rfl, y, hy, hs, he, hk, ?_⟩
      rw [chainCount_namesSlot_freedOne hr hnot hself]
      exact Nat.sub_le_iff_le_add'.1 hc
  · intro i hi
    rw [List.mem_cons, not_or] at hi
    obtain ⟨hself, hi⟩ := hi
    rw [htail.kept i hi, slots_freedOne_of_ne hr hself, lowerBy_lowerBy, chainCount_namesSlot_freedOne hr hnot hself]
  · intro n
    rw [htail.occupancy, occupancy_freedOne hr, Nat.sub_sub, chainCount_cons hr,
      chainCount_freedOne hr hnot (p := fun x => decide (x.axis = n)) fun _ _ => rfl]
    simp only [decide_eq_true_eq]
  · exact htail.lists.trans hlists
  · exact htail.axisNotices.trans hax
  · exact htail.attention.trans hatt

/-- The slots that a release check frees, one after another (R21, R22). -/
inductive ReleaseChain : Option Handle → Store → List SlotNo → Store → Prop where
  | stop {o : Option Handle} {st : Store} (hstop : ∀ h r, o = some h → liveAs st h = some r → releasable r = false) :
      ReleaseChain o st [] st
  | free {h : Handle} {r : TripRecord} {st st' : Store} {chain : List SlotNo} (hr : liveAs st h = some r)
      (hrel : releasable r = true) (tail : ReleaseChain r.successor (freedOne h r st) chain st') :
      ReleaseChain (some h) st (h.slot :: chain) st'

/-- Each release frees a LIVE slot, so the fuel lasts for the whole chain (log entry 17). -/
theorem releaseChain_releaseFrom (fuel : Nat) (h : Handle) (st : Store) (hfuel : slotCount isLive st ≤ fuel) :
    ∃ chain, ReleaseChain (some h) st chain (releaseFrom fuel h st) := by
  induction fuel generalizing h st with
  | zero =>
    refine ⟨[], .stop fun k r hk hr => ?_⟩
    have := slotCount_pos (p := isLive) (isLive_of_liveAt ((liveAs_eq_some_iff _ _ _).1 hr).2)
    omega
  | succ fuel ih =>
    unfold releaseFrom
    split
    next hnone => exact ⟨[], .stop fun k r hk hr => by cases hk; rw [hnone] at hr; cases hr⟩
    next r hr =>
      split
      next hrel =>
        have hcount := slotCount_isLive_freeSlot ((liveAs_eq_some_iff _ _ _).1 hr).2
        cases hsucc : r.successor with
        | none =>
          refine ⟨[h.slot], .free hr hrel ?_⟩
          rw [freedOne, hsucc]
          exact .stop fun _ _ hk => nomatch hk
        | some k =>
          have hle : slotCount isLive (freedOne h r st) ≤ fuel := by
            rw [freedOne, slotCount_isLive_unlink]
            omega
          obtain ⟨chain, htail⟩ := ih k (freedOne h r st) hle
          refine ⟨h.slot :: chain, .free hr hrel ?_⟩
          rw [freedOne, hsucc] at htail ⊢
          exact htail
      next hrel =>
        refine ⟨[], .stop fun k x hk hx => ?_⟩
        cases hk
        rw [hr] at hx
        cases hx
        exact Bool.not_eq_true _ ▸ hrel

theorem ReleaseChain.stopped {o : Option Handle} {st st' : Store} (h : ReleaseChain o st [] st') (k : Handle) (r : TripRecord)
    (hk : o = some k) (hr : liveAs st' k = some r) : releasable r = false := by
  cases h with
  | stop hstop => exact hstop k r hk hr

section Chain

variable {o : Option Handle} {st st' : Store} {chain : List SlotNo} (hchain : ReleaseChain o st chain st')
include hchain

theorem ReleaseChain.frees : Frees st chain st' := by
  induction hchain with
  | stop _ => exact .nil _
  | free hr hrel _ ih => exact ih.cons hr hrel

theorem ReleaseChain.head {i : SlotNo} (hi : chain.head? = some i) :
    ∃ h r, o = some h ∧ h.slot = i ∧ liveAs st h = some r ∧ releasable r = true := by
  cases hchain with
  | stop _ => cases hi
  | free hr hrel _ => cases hi; exact ⟨_, _, rfl, rfl, hr, hrel⟩

/-- Each record after the first is the successor of the one before, which alone was counted when it was freed. -/
theorem ReleaseChain.links (k : Nat) {i j : SlotNo} (hi : chain[k]? = some i) (hj : chain[k + 1]? = some j) :
    ∃ x y, liveAt st i = some x ∧ x.successor = some (handleOf st j) ∧ liveAt st j = some y ∧ y.predCount ≤ 1 := by
  induction hchain generalizing k i j with
  | stop _ => cases hi
  | @free h r st st' chain hr hrel tail ih =>
    have hnodup := (tail.frees.cons hr hrel).nodup
    have hne {m : SlotNo} (hm : m ∈ chain) : m ≠ h.slot := fun e => (List.nodup_cons.1 hnodup).1 (e ▸ hm)
    cases k with
    | zero =>
      have hhead : chain.head? = some j := by rw [List.head?_eq_getElem?]; exact hj
      obtain ⟨next, y, hnext, rfl, hy, hyrel⟩ := tail.head hhead
      have hslot := slots_freedOne_of_ne hr (hne (List.mem_of_getElem? hj))
      obtain ⟨hgen, hy⟩ := (liveAs_eq_some_iff _ _ _).1 hy
      rw [liveAt_of_lowerBy hslot, Option.map_eq_some_iff] at hy
      obtain ⟨z, hz, rfl⟩ := hy
      rw [hslot, gen_lowerBy] at hgen
      cases hi
      refine ⟨r, z, ((liveAs_eq_some_iff _ _ _).1 hr).2, ?_, hz, ?_⟩
      · rw [hnext, handleOf, hgen]
      · have hzero : z.predCount - (if namesSlot st next.slot r then 1 else 0) = 0 := ((releasable_iff _).1 hyrel).2.2.2
        split at hzero <;> omega
    | succ k =>
      have hi' : chain[k]? = some i := hi
      have hj' : chain[k + 1]? = some j := hj
      obtain ⟨x, y, hx, hxj, hy, hcount⟩ := ih k hi' hj'
      have hsloti := slots_freedOne_of_ne hr (hne (List.mem_of_getElem? hi'))
      have hslotj := slots_freedOne_of_ne hr (hne (List.mem_of_getElem? hj'))
      rw [liveAt_of_lowerBy hsloti, Option.map_eq_some_iff] at hx
      rw [liveAt_of_lowerBy hslotj, Option.map_eq_some_iff] at hy
      obtain ⟨x, hx, rfl⟩ := hx
      obtain ⟨y, hy, rfl⟩ := hy
      rw [handleOf_of_lowerBy hslotj] at hxj
      have hnot : ¬ namesSlot st j r := by
        intro hnames
        obtain ⟨m, hhead⟩ : ∃ m, chain.head? = some m := Option.isSome_iff_exists.1 (by
          rw [List.isSome_head?]
          exact List.ne_nil_of_mem (List.mem_of_getElem? hi'))
        obtain ⟨next, _, hnext, hm, -⟩ := tail.head hhead
        have hmj : m = j := by
          rw [of_decide_eq_true hnames] at hnext
          rw [← hm, ← Option.some.inj hnext]
          rfl
        rw [hmj, List.head?_eq_getElem?] at hhead
        have hlt := (List.getElem?_eq_some_iff.1 hj').1
        exact absurd ((List.getElem?_inj hlt (List.nodup_cons.1 hnodup).2).1 (hj'.trans hhead.symm)) (by omega)
      rw [if_neg hnot] at hcount
      exact ⟨x, y, hx, hxj, hy, hcount⟩

/-- Behind the last freed record stands none that could be released. -/
theorem ReleaseChain.ends {i : SlotNo} {x : TripRecord} {next : Handle} {y : TripRecord} (hi : chain.getLast? = some i)
    (hx : liveAt st i = some x) (hnext : x.successor = some next) (hy : liveAs st' next = some y) : releasable y = false := by
  induction hchain generalizing x with
  | stop _ => cases hi
  | @free h r st st' chain hr hrel tail ih =>
    cases hlast : chain.getLast? with
    | none =>
      rw [List.getLast?_eq_none_iff] at hlast
      subst hlast
      cases hi
      cases hx.symm.trans ((liveAs_eq_some_iff _ _ _).1 hr).2
      exact tail.stopped next y hnext hy
    | some m =>
      have hm : m = i := by
        rw [List.getLast?_cons, hlast] at hi
        exact Option.some.inj hi
      subst hm
      have hmem := List.mem_of_getLast? hlast
      have hne : m ≠ h.slot := fun e => (List.nodup_cons.1 (tail.frees.cons hr hrel).nodup).1 (e ▸ hmem)
      exact ih hlast (x := { x with predCount := x.predCount - if namesSlot st m r then 1 else 0 })
        (by rw [liveAt_of_lowerBy (slots_freedOne_of_ne hr hne), hx]; rfl) hnext hy

theorem ReleaseChain.mem_iff (i : SlotNo) : i ∈ chain ↔ st'.slots[i].gen ≠ st.slots[i].gen := by
  have h := hchain.frees
  constructor
  · intro hi
    rw [(h.freed i hi).1]
    simp
  · intro hgen
    by_contra hi
    rw [h.kept i hi, gen_lowerBy] at hgen
    exact hgen rfl

/-- The freed slots, counted by their generations. -/
theorem ReleaseChain.countP_eq (p : TripRecord → Bool) :
    ((List.finRange 384).countP fun i =>
      decide (st'.slots[i].gen ≠ st.slots[i].gen) && (match liveAt st i with
        | some r => p r
        | none => false)) = chainCount st chain p := by
  simp only [← hchain.mem_iff]
  have hperm : ((List.finRange 384).filter fun i => decide (i ∈ chain)).Perm chain :=
    (List.perm_ext_iff_of_nodup ((List.nodup_finRange 384).filter _) hchain.frees.nodup).2 fun i => by simp
  rw [chainCount, ← hperm.countP_eq, List.countP_filter]
  exact List.countP_congr fun i _ => by rw [Bool.and_comm]

end Chain

/-- Settles O46. -/
theorem releaseFollowsTheChainToItsEnd : Obligations.ReleaseFollowsTheChainToItsEnd := by
  intro st h done freed naming
  obtain ⟨chain, hchain⟩ := releaseChain_releaseFrom 384 h st (slotCount_le _ _)
  have hdone : ReleaseChain (some h) st chain done := hchain
  have hfrees := hdone.frees
  have hcount (p : TripRecord → Bool) : freed p = chainCount st chain p := hdone.countP_eq p
  have hnaming (i : SlotNo) : naming i = chainCount st chain (namesSlot st i) := hcount _
  refine ⟨fun hno => ?_, fun r hr hrel => ?_, fun honly => ?_, fun i => ?_, fun n => ?_, hfrees.lists, hfrees.axisNotices,
    hfrees.attention⟩
  · generalize done = x at hdone
    cases hdone with
    | stop _ => rfl
    | free hr hrel _ => rw [hno _ hr] at hrel; cases hrel
  · refine ⟨chain, ?_, hfrees.nodup, hdone.mem_iff, fun k i j => hdone.links k, fun i x next y => hdone.ends⟩
    generalize done = x at hdone
    cases hdone with
    | stop hstop => rw [hstop h r rfl hr] at hrel; cases hrel
    | free _ _ _ => rfl
  · rw [noneReleasable_iff]
    exact ReleasableOnly.releaseCheck fun i r hr hrel => by rw [honly i r hr hrel]; exact List.mem_singleton_self _
  · rw [hnaming]
    by_cases hi : i ∈ chain
    · exact .inl (hfrees.freed i hi)
    · exact .inr (hfrees.kept i hi)
  · rw [hcount]
    exact hfrees.occupancy n

end Sys2Proof.Machine
end

section
/-! What one firing leaves of its own record and of its successor (O42, O43). -/

namespace Sys2Proof.Machine

/-! ### Counting and arming -/

theorem setLive_comm {i j : SlotNo} (hij : i ≠ j) (r r' : TripRecord) (st : Store) :
    setLive i r (setLive j r' st) = setLive j r' (setLive i r st) := by
  simp only [setLive, setContent, getElem_put_ne _ _ _ _ hij, getElem_put_ne _ _ _ _ hij.symm, put_comm _ _ _ hij.symm]

theorem armSuccessor_of_dormant {st : Store} {h : Handle} {x : TripRecord} (hx : liveAs st h = some x) (hd : x.state = .dormant) :
    armSuccessor (some h) st = setLive h.slot { x with state := .armed } st := by
  simp only [armSuccessor, hx, if_pos hd]

theorem armSuccessor_of_not_dormant {st : Store} {h : Handle} {x : TripRecord} (hx : liveAs st h = some x)
    (hd : x.state ≠ .dormant) : armSuccessor (some h) st = st := by
  simp only [armSuccessor, hx, if_neg hd]

theorem armSuccessor_of_none {st : Store} {h : Handle} (hx : liveAs st h = none) : armSuccessor (some h) st = st := by
  simp only [armSuccessor, hx]

theorem handleOf_armSuccessor (o : Option Handle) (st : Store) (j : SlotNo) : handleOf (armSuccessor o st) j = handleOf st j := by
  obtain h | ⟨k, x, -, -, -, h⟩ := armSuccessor_cases o st <;> rw [h]
  exact handleOf_setLive _ _ _ _

theorem liveAs_setLive_of_ne {h : Handle} {i : SlotNo} (hi : h.slot ≠ i) (r : TripRecord) (st : Store) :
    liveAs (setLive i r st) h = liveAs st h := by
  have hslot : (setLive i r st).slots[h.slot] = st.slots[h.slot] := by rw [setLive_slots, getElem_put_ne _ _ _ _ hi]
  rw [liveAs, liveAs, liveAt_congr hslot, hslot]

/-- Steps 2 to 4 of a firing: the record is ARMED, so that arming its successor says nothing of it (R99 to R101). -/
theorem afterSuccessor_eq {st : Store} {i : SlotNo} {r : TripRecord} (hr : liveAt st i = some r) (ha : r.state = .armed)
    (d : Travel) : afterSuccessor d i r st = setLive i (counted d r) (armSuccessor r.successor st) := by
  unfold afterSuccessor
  cases r.successor with
  | none => rfl
  | some h =>
    by_cases hi : h.slot = i
    · have hdormant {st' : Store} {y : TripRecord} (hy : liveAt st' i = some y) (hstate : y.state = .armed) :
          armSuccessor (some h) st' = st' := by
        cases hx : liveAs st' h with
        | none => exact armSuccessor_of_none hx
        | some x =>
          have hxi := ((liveAs_eq_some_iff _ _ _).1 hx).2
          rw [hi, hy] at hxi
          cases hxi
          exact armSuccessor_of_not_dormant hx (by rw [hstate]; exact nofun)
      have hcounted : liveAt (setLive i (counted d r) st) i = some (counted d r) := by simp
      rw [hdormant hr ha, hdormant hcounted ha]
    · have hlive := liveAs_setLive_of_ne hi (counted d r) st
      cases hx : liveAs st h with
      | none => rw [armSuccessor_of_none hx, armSuccessor_of_none (hlive.trans hx)]
      | some x =>
        by_cases hd : x.state = .dormant
        · rw [armSuccessor_of_dormant hx hd, armSuccessor_of_dormant (hlive.trans hx) hd, setLive_comm hi]
        · rw [armSuccessor_of_not_dormant hx hd, armSuccessor_of_not_dormant (hlive.trans hx) hd]

/-- The successor of a firing, armed. -/
theorem armSuccessor_eq (o : Option Handle) (st : Store) :
    armSuccessor o st =
      match o.bind fun h => (liveAs st h).map fun x => (h, x) with
      | some (h, x) =>
        if x.state = .dormant then
          { st with slots := put st.slots h.slot ⟨h.gen, .live { x with state := .armed }⟩ }
        else st
      | none => st := by
  cases o with
  | none => rfl
  | some h =>
    cases hx : liveAs st h with
    | none => simp only [armSuccessor_of_none hx, Option.bind_some, hx, Option.map_none]
    | some x =>
      simp only [Option.bind_some, hx, Option.map_some]
      split
      next hd => rw [armSuccessor_of_dormant hx hd, setLive_of_liveAs hx]
      next hd => rw [armSuccessor_of_not_dormant hx hd]

/-! ### Steps 5 to 7 -/

theorem notifiesFire_eq (x : Notify) : notifiesFire x = decide (x = .fire ∨ x = .both) := by
  cases x <;> rfl

theorem notifiesEnd_eq (x : Notify) : notifiesEnd x = decide (x = .ended ∨ x = .both) := by
  cases x <;> rfl

theorem countedDown_eq (d : Travel) (r : TripRecord) :
    countedDown d r =
      { r with
        fireCount := min (r.fireCount + 1) 65535
        lastDirection := some d
        pending := { r.pending with fired := r.pending.fired || decide (r.notify = .fire ∨ r.notify = .both) }
        repeats := r.repeats.map (· - 1) } := by
  rw [countedDown, counted, notifiesFire_eq]

theorem nextPosition_eq (d : Travel) (p : Int) (k : Nat) : nextPosition d p k = if d = .rising then p + k else p - k := by
  cases d <;> rfl

section Fire

variable (sp : Span) (d : Travel) (parts : List Stretch) (i : SlotNo) {r : TripRecord} (st : Store)

theorem fireAtStore_of_last (hrep : r.repeats = some 1) :
    fireAtStore sp d parts i r st = becomeSpent i (countedDown d r) (afterSuccessor d i r st) := by
  have h0 : (countedDown d r).repeats = some 0 := by rw [countedDown, hrep]; rfl
  exact if_pos h0

theorem repeats_countedDown_ne (hrep : r.repeats = none ∨ ∃ k, r.repeats = some (k + 2)) :
    (countedDown d r).repeats ≠ some 0 := by
  rw [countedDown]
  rcases hrep with h | ⟨k, h⟩ <;> rw [h] <;> simp

theorem fireAtStore_of_still (hrep : r.repeats = none ∨ ∃ k, r.repeats = some (k + 2)) (hpitch : r.pitch = none) :
    fireAtStore sp d parts i r st = setLive i (countedDown d r) (afterSuccessor d i r st) := by
  have hpitch : (countedDown d r).pitch = none := hpitch
  refine (if_neg (repeats_countedDown_ne d hrep)).trans ?_
  change (match (countedDown d r).pitch with
    | none => _
    | some k => _) = _
  rw [hpitch]
  rfl

theorem fireAtStore_of_travelling (hrep : r.repeats = none ∨ ∃ k, r.repeats = some (k + 2)) {k : Nat} (hpitch : r.pitch = some k) :
    fireAtStore sp d parts i r st =
      if inRange sp (reduce sp (nextPosition d r.position k)) then
        rePlace i (rearmed d parts (reduce sp (nextPosition d r.position k)) (countedDown d r)) (afterSuccessor d i r st)
      else becomeSpent i (countedDown d r) (afterSuccessor d i r st) := by
  have hpitch : (countedDown d r).pitch = some k := hpitch
  refine (if_neg (repeats_countedDown_ne d hrep)).trans ?_
  change (match (countedDown d r).pitch with
    | none => _
    | some k => _) = _
  rw [hpitch]
  rfl

end Fire

/-- The record of a firing as it becomes SPENT (R104). -/
def spentRecord (r : TripRecord) : TripRecord :=
  { r with state := .spent, pending := { r.pending with spent := r.pending.spent || notifiesEnd r.notify } }

section Own

variable {st : Store} {i : SlotNo} {r : TripRecord} (hr : liveAt st i = some r) (ha : r.state = .armed) (d : Travel)
include hr ha

theorem setLive_afterSuccessor (x : TripRecord) :
    setLive i x (afterSuccessor d i r st) = setLive i x (armSuccessor r.successor st) := by
  rw [afterSuccessor_eq hr ha, setLive_setLive]

theorem setLive_unlist_afterSuccessor (n : AxisNo) (x : TripRecord) :
    setLive i x (unlist n i (afterSuccessor d i r st)) = setLive i x (unlist n i (armSuccessor r.successor st)) := by
  have hcomm (y : Store) : setLive i x (unlist n i y) = unlist n i (setLive i x y) := rfl
  rw [hcomm, hcomm, setLive_afterSuccessor hr ha]

theorem becomeSpent_afterSuccessor (x : TripRecord) :
    becomeSpent i x (afterSuccessor d i r st) =
      releaseCheck (handleOf st i) (setLive i (spentRecord x) (unlist x.axis i (armSuccessor r.successor st))) := by
  have hh : handleOf (afterSuccessor d i r st) i = handleOf st i := by
    rw [afterSuccessor_eq hr ha, handleOf_setLive, handleOf_armSuccessor]
  rw [becomeSpent, hh]
  exact congrArg _ (setLive_unlist_afterSuccessor hr ha d _ _)

theorem rePlace_afterSuccessor (x : TripRecord) :
    rePlace i x (afterSuccessor d i r st) =
      place x.axis i x.position (setLive i x (unlist x.axis i (armSuccessor r.successor st))) := by
  rw [rePlace, setLive_unlist_afterSuccessor hr ha]

end Own

/-- Settles O42. -/
theorem firingMovesItsOwnRecord : Obligations.FiringMovesItsOwnRecord := by
  intro sp d parts i r st hr ha armed r1 spent
  have harmed : armSuccessor r.successor st = armed := armSuccessor_eq r.successor st
  have hr1 : countedDown d r = r1 := countedDown_eq d r
  have hspent : becomeSpent i (countedDown d r) (afterSuccessor d i r st) = releaseCheck (handleOf st i) spent := by
    rw [becomeSpent_afterSuccessor hr ha, harmed, hr1, spentRecord, notifiesEnd_eq]
  refine ⟨fun hrep => ?_, fun hrep => ⟨fun hpitch => ?_, fun k hpitch => ⟨fun hq => ?_, fun hq => ?_⟩⟩⟩
  · rw [fireAtStore_of_last sp d parts i st hrep, hspent]
  · rw [fireAtStore_of_still sp d parts i st hrep hpitch, setLive_afterSuccessor hr ha, harmed, hr1]
  · rw [fireAtStore_of_travelling sp d parts i st hrep hpitch, nextPosition_eq, hq, hspent]
    rfl
  · intro r2 at2
    have hr2 : rearmed d parts (reduce sp (nextPosition d r.position k)) (countedDown d r) = r2 := by
      rw [hr1, nextPosition_eq]
      rfl
    rw [fireAtStore_of_travelling sp d parts i st hrep hpitch, hr2, rePlace_afterSuccessor hr ha, harmed, nextPosition_eq, if_pos hq]
    have haxis : r2.axis = r.axis := by rw [← hr2, rearmed_eq]; rfl
    have hpos : r2.position = reduce sp (if d = .rising then r.position + k else r.position - k) := by
      rw [← hr2, rearmed_eq, nextPosition_eq]
    rw [haxis, hpos]
    rfl

/-! ### The successor -/

/-- The successor of a firing, armed when it was DORMANT (R101). -/
def armedRecord (x : TripRecord) : TripRecord :=
  { x with state := if x.state = .dormant then .armed else x.state }

theorem liveAs_armSuccessor {st : Store} {h : Handle} {x : TripRecord} (hx : liveAs st h = some x) :
    liveAs (armSuccessor (some h) st) h = some (armedRecord x) := by
  unfold armedRecord
  by_cases hd : x.state = .dormant
  · rw [armSuccessor_of_dormant hx hd, if_pos hd, liveAs_setLive, if_pos ⟨rfl, ((liveAs_eq_some_iff _ _ _).1 hx).1⟩]
  · rw [armSuccessor_of_not_dormant hx hd, if_neg hd, hx]

/-- An armed successor is SPENT exactly when it was. -/
theorem releasable_armedRecord_iff (x : TripRecord) (n : Nat) :
    releasable { armedRecord x with predCount := n } = true ↔
      x.state = .spent ∧ x.endMode = .release ∧ x.pending = ⟨false, false, false⟩ ∧ n = 0 := by
  rw [releasable_iff, noKinds_iff]
  have hstate : (armedRecord x).state = .spent ↔ x.state = .spent := by
    unfold armedRecord
    by_cases hd : x.state = .dormant <;> simp [hd]
  exact and_congr hstate Iff.rfl

/-- What the firing of the record of slot `i` leaves of its successor `h`, which was `x` (R101, R21). -/
structure SuccessorArmed (st done : Store) (i : SlotNo) (h : Handle) (x : TripRecord) : Prop where
  kept : liveAs done (handleOf st i) ≠ none → liveAs done h = some (armedRecord x)
  lowered : liveAs done (handleOf st i) = none →
    ¬ (x.state = .spent ∧ x.endMode = .release ∧ x.pending = ⟨false, false, false⟩ ∧ x.predCount ≤ 1) →
    liveAs done h = some { armedRecord x with predCount := x.predCount - 1 }
  freed : liveAs done (handleOf st i) = none → x.state = .spent → x.endMode = .release → x.pending = ⟨false, false, false⟩ →
    x.predCount ≤ 1 → done.slots[h.slot] = ⟨h.gen + 1, .free⟩

theorem SuccessorArmed.of_live {st done : Store} {i : SlotNo} {h : Handle} {x y : TripRecord}
    (hi : liveAs done (handleOf st i) = some y) (hh : liveAs done h = some (armedRecord x)) : SuccessorArmed st done i h x where
  kept _ := hh
  lowered hnone := by rw [hi] at hnone; cases hnone
  freed hnone := by rw [hi] at hnone; cases hnone

/-- A store in which the record of slot `i` has been replaced, whatever the lists are, once its successor is armed. -/
theorem liveAs_replaced {st S : Store} {i : SlotNo} {h : Handle} {x y : TripRecord} (hi : h.slot ≠ i) (hx : liveAs st h = some x)
    (hslots : S.slots = (setLive i y (armSuccessor (some h) st)).slots) :
    liveAs S (handleOf st i) = some y ∧ liveAs S h = some (armedRecord x) := by
  rw [liveAs_congr hslots, liveAs_congr hslots, liveAs_setLive_of_ne hi, liveAs_armSuccessor hx, ← handleOf_armSuccessor (some h) st,
    ← handleOf_setLive i i y, liveAs_handleOf, liveAt_setLive, if_pos rfl]
  exact ⟨rfl, rfl⟩

/-- The release check of the fired record follows its link to the successor, and no further than that matters to it (R21, R22). -/
theorem SuccessorArmed.of_releaseCheck {st S : Store} {i : SlotNo} {h : Handle} {x y : TripRecord} (hi : h.slot ≠ i)
    (hown : liveAs S (handleOf st i) = some y) (hh : liveAs S h = some (armedRecord x)) (hsucc : y.successor = some h) :
    SuccessorArmed st (releaseCheck (handleOf st i) S) i h x := by
  obtain ⟨chain, hchain⟩ := releaseChain_releaseFrom 384 (handleOf st i) S (slotCount_le _ _)
  change ReleaseChain _ S chain (releaseCheck (handleOf st i) S) at hchain
  generalize releaseCheck (handleOf st i) S = done at hchain
  have hfrees := hchain.frees
  cases hchain with
  | stop hstop => exact .of_live hown hh
  | @free _ r _ _ chain hr hrel tail =>
    cases hown.symm.trans hr
    have hslot : (freedOne (handleOf st i) y S).slots[h.slot] = lowerBy 1 S.slots[h.slot] := by
      have hnames : namesSlot S h.slot y = true := by
        rw [namesSlot, hsucc, handleOf_slot_of_liveAs hh, decide_eq_true rfl]
      rw [slots_freedOne_of_ne hr hi, if_pos hnames]
    obtain ⟨hgen, hlive⟩ := (liveAs_eq_some_iff _ _ _).1 hh
    have hlowered : liveAs (freedOne (handleOf st i) y S) h = some { armedRecord x with predCount := x.predCount - 1 } :=
      (liveAs_eq_some_iff _ _ _).2 ⟨by rw [hslot, gen_lowerBy, hgen], by rw [liveAt_of_lowerBy hslot, hlive]; rfl⟩
    have hreleased : liveAs done (handleOf st i) = none := by
      have hfree := (hfrees.freed i (List.mem_cons_self ..)).1
      unfold liveAs
      rw [liveAt_eq_none_of_free (i := (handleOf st i).slot) (congrArg Slot.content hfree), ite_self]
    rw [hsucc] at tail
    refine ⟨fun hkept => absurd hreleased hkept, fun _ hnot => ?_, fun _ hspent hend hkinds hcount => ?_⟩
    · cases tail with
      | stop hstop => exact hlowered
      | free hr' hrel' _ =>
        cases hlowered.symm.trans hr'
        obtain ⟨hspent, hend, hkinds, hzero⟩ := (releasable_armedRecord_iff _ _).1 hrel'
        exact absurd ⟨hspent, hend, hkinds, by omega⟩ hnot
    · cases tail with
      | stop hstop =>
        have hno := hstop h _ rfl hlowered
        rw [(releasable_armedRecord_iff _ _).2 ⟨hspent, hend, hkinds, by omega⟩] at hno
        cases hno
      | free _ _ _ =>
        rw [(hfrees.freed h.slot (by simp)).1, hgen]

theorem successorArmed_fireAtStore (sp : Span) (d : Travel) (parts : List Stretch) {i : SlotNo} {r : TripRecord} {st : Store}
    {h : Handle} {x : TripRecord} (hr : liveAt st i = some r) (ha : r.state = .armed) (hsucc : r.successor = some h)
    (hi : h.slot ≠ i) (hx : liveAs st h = some x) : SuccessorArmed st (fireAtStore sp d parts i r st) i h x := by
  have hreplaced {S : Store} {y : TripRecord} (hslots : S.slots = (setLive i y (armSuccessor r.successor st)).slots) :
      liveAs S (handleOf st i) = some y ∧ liveAs S h = some (armedRecord x) :=
    liveAs_replaced hi hx (by rw [hslots, hsucc])
  obtain he | ⟨q, he⟩ | he := fireAtStore_cases sp d parts i r st <;> rw [he]
  · obtain ⟨hown, hh⟩ := hreplaced (congrArg Store.slots (setLive_afterSuccessor hr ha d (countedDown d r)))
    exact .of_live hown hh
  · obtain ⟨hown, hh⟩ := hreplaced
      (congrArg Store.slots (setLive_afterSuccessor hr ha d (rearmed d parts q (countedDown d r))))
    exact .of_live (done := rePlace i _ _) hown hh
  · rw [becomeSpent_afterSuccessor hr ha]
    obtain ⟨hown, hh⟩ := hreplaced (S := setLive i (spentRecord (countedDown d r)) (unlist r.axis i (armSuccessor r.successor st))) rfl
    exact .of_releaseCheck hi hown hh hsucc

/-- Settles O43. -/
theorem firingArmsItsSuccessor : Obligations.FiringArmsItsSuccessor := by
  intro sp d parts i r st h x hr ha hsucc hi hx done released armed
  obtain ⟨hkept, hlowered, hfreed⟩ := successorArmed_fireAtStore sp d parts hr ha hsucc hi hx
  exact ⟨hkept, hlowered, hfreed⟩

end Sys2Proof.Machine
end

section
/-! A position update and the claims of its walk, before which a line request may come (O44). -/

namespace Sys2Proof.Machine

/-! ### Which met records fire -/

/-- The qualifier of the record admits the travel, and its gate is at its level (R94). -/
def Admitted (gates : Vector Level 4) (d : Travel) (r : TripRecord) : Prop :=
  ¬ (r.qualifier = .rising ∧ d = .falling) ∧ ¬ (r.qualifier = .falling ∧ d = .rising) ∧
    ∀ g, r.gate = some g → gates[g.input] = g.level

theorem fires_iff_admitted (gates : Vector Level 4) (d : Travel) (r : TripRecord) :
    fires gates d r = true ↔ r.state = .armed ∧ Admitted gates d r := by
  rw [fires_iff, qualifies_iff, Admitted]
  tauto

section Meet

variable (sp : Span) (d : Travel) (parts : List Stretch) {s : State} {i : SlotNo}

theorem meet_of_not_live (h : liveAt s.store i = none) : meet sp d parts s i = s := by
  simp only [meet, h]

theorem meet_of_passed {r : TripRecord} (hr : liveAt s.store i = some r) (h : ¬ (r.state = .armed ∧ Admitted s.gates d r)) :
    meet sp d parts s i = s := by
  rw [← fires_iff_admitted] at h
  simp only [meet, hr, if_neg h]

theorem meet_of_fired {r : TripRecord} (hr : liveAt s.store i = some r) (ha : r.state = .armed) (h : Admitted s.gates d r) :
    meet sp d parts s i =
      setStore (fireAtStore sp d parts i r s.store) (claimArrives r.line ⟨r.action, r.width, false⟩ (beforeClaim r.line s)) := by
  have hfires : fires s.gates d r = true := (fires_iff_admitted _ _ _).2 ⟨ha, h⟩
  have hstore := store_fire sp d parts i r s
  simp only [meet, hr, if_pos hfires]
  rw [← hstore]
  rfl

end Meet

/-! ### The line request before a claim (log entry 22) -/

theorem inProgress_unique {s : State} {f g : Frame} {a b : Nat} (hf : InProgress s f a) (hg : InProgress s g b) : f = g ∧ a = b := by
  have hfg : f = g := Option.some.inj (hf.2.1.symm.trans hg.2.1)
  exact ⟨hfg, hf.2.2.symm.trans (hfg ▸ hg.2.2)⟩

section Before

variable {l : LineNo} {s : State}

theorem beforeClaim_of_refused (h : lineRequestAt l { s with choices := s.choices + 1 } = none) : beforeClaim l s = s := by
  simp only [beforeClaim, h]

theorem beforeClaim_of_request {t : State} (h : lineRequestAt l { s with choices := s.choices + 1 } = some t) :
    beforeClaim l s = if Config.lineRequestFirst s.choices then t else { s with choices := s.choices + 1 } := by
  simp only [beforeClaim, h]

/-- What a line request that could act says of the DRIVE-LINE in progress. -/
theorem drives_of_lineRequestAt {f : Frame} (hf : InProgress s f 22) {t : State} (h : lineRequestAt l s = some t) :
    ∃ c, readDrive f = .ok (l, c) ∧ driveWaits l s = false := by
  obtain ⟨g, c, hg, hread, hwaits, -⟩ | ⟨g, u, r, hg, -, -⟩ := lineRequestAt_cases h
  · obtain ⟨rfl, -⟩ := inProgress_unique hf hg
    exact ⟨c, hread, hwaits⟩
  · rcases hg with ⟨hg, -⟩ | ⟨hg, -⟩ <;> cases (inProgress_unique hf hg).2

theorem line_of_readDrive {f : Frame} {c : LineClaim} (h : readDrive f = .ok (l, c)) : u8 f 4 = l.val := by
  obtain ⟨_, -, h⟩ := verdict_bind_eq_ok h
  obtain ⟨k, hk, h⟩ := verdict_bind_eq_ok h
  obtain ⟨_, -, h⟩ := verdict_bind_eq_ok h
  obtain ⟨_, -, h⟩ := verdict_bind_eq_ok h
  cases h
  exact (drivenLine_eq_some_iff f l).1 (fieldOr_eq_ok_iff.1 hk)

theorem driveWaits_eq_false_iff : driveWaits l s = false ↔ ∀ k ∈ s.lines[l].claims, k.fromRequest = false := by
  simp [driveWaits]

theorem lineRequestAt_of_drive {f : Frame} {c : LineClaim} (hf : InProgress s f 22) (hread : readDrive f = .ok (l, c))
    (hwaits : ∀ k ∈ s.lines[l].claims, k.fromRequest = false) : lineRequestAt l s = some (claimArrives l c s) := by
  have hserves : requestOf driveLineCode s = some f := requestOf_of_inProgress hf
  have hdriven : drivenAt l s = some (claimArrives l c s) := by
    simp only [drivenAt, hserves, hread, driveWaits_eq_false_iff.2 hwaits, and_self, if_true]
  rw [lineRequestAt, hdriven, Option.some_or]

theorem requestOf_of_other {f : Frame} {a b : Nat} (hf : InProgress s f a) (hab : a ≠ b) : requestOf b s = none :=
  requestOf_eq_none_of_code hf.2.1 (by rw [hf.2.2]; exact hab)

/-- The CONFIG-LINE or LINE-STATUS in progress, with the claim that answers it. -/
def lineRows : List (Instr × Nat × (Frame → State → Verdict (State × Reply))) :=
  [(.configLine, 23, configLine), (.lineStatus, 24, lineStatus)]

theorem lineRequestAt_of_row {c : Instr} {code : Nat} {claim : Frame → State → Verdict (State × Reply)}
    (hrow : (c, code, claim) ∈ lineRows) {f : Frame} (hf : InProgress s f code) : lineRequestAt l s = servedAt code claim l s := by
  simp only [lineRows, List.mem_cons, List.not_mem_nil, or_false, Prod.mk.injEq] at hrow
  have hdriven : drivenAt l s = none := by
    have hnone : requestOf driveLineCode s = none :=
      requestOf_of_other hf (by rcases hrow with ⟨-, rfl, -⟩ | ⟨-, rfl, -⟩ <;> decide)
    simp only [drivenAt, hnone]
  rw [lineRequestAt, hdriven, Option.none_or]
  rcases hrow with ⟨-, rfl, rfl⟩ | ⟨-, rfl, rfl⟩
  · have hother : servedAt 24 lineStatus l s = none := by simp only [servedAt, requestOf_of_other hf (b := 24) (by decide)]
    rw [hother, Option.or_none]
  · have hother : servedAt 23 configLine l s = none := by simp only [servedAt, requestOf_of_other hf (b := 23) (by decide)]
    rw [hother, Option.none_or]

theorem exec_of_row {c : Instr} {code : Nat} {claim : Frame → State → Verdict (State × Reply)} (hrow : (c, code, claim) ∈ lineRows)
    {f : Frame} (hf : InProgress s f code) : exec c s = .next (answer f (claim f s) s) := by
  simp only [lineRows, List.mem_cons, List.not_mem_nil, or_false, Prod.mk.injEq] at hrow
  rcases hrow with ⟨rfl, rfl, rfl⟩ | ⟨rfl, rfl, rfl⟩
  · exact exec_configLine hf
  · exact exec_lineStatus hf

section Served

variable {code : Nat} {claim : Frame → State → Verdict (State × Reply)} {f : Frame} (hf : InProgress s f code)
include hf

theorem servedAt_of_other_line (h : u8 f 3 ≠ l.val) : servedAt code claim l s = none := by
  have hline : finOf 16 (u8 f 3) ≠ some l := fun e => h ((finOf_eq_some_iff l).1 e)
  simp only [servedAt, requestOf_of_inProgress hf]
  split
  · rfl
  · rw [if_neg hline]

theorem servedAt_of_error {e : Refused} (h : claim f s = .error e) : servedAt code claim l s = none := by
  simp only [servedAt, requestOf_of_inProgress hf, h]

theorem servedAt_of_ok {u : State} {r : Reply} (h : claim f s = .ok (u, r)) (hl : u8 f 3 = l.val) :
    servedAt code claim l s = some (respond f r u) := by
  simp only [servedAt, requestOf_of_inProgress hf, h, if_pos (finOf_of_eq hl)]

end Served

/-- CONFIG-LINE and LINE-STATUS are refused for a batch flag, and CONFIG-LINE for a polarity above 1 (R133, R134). -/
theorem lineRow_refuses {c : Instr} {code : Nat} {claim : Frame → State → Verdict (State × Reply)}
    (hrow : (c, code, claim) ∈ lineRows) {f : Frame} (hl : u8 f 3 = l.val) :
    ((batchFlag f = true ∨ (code = 23 ∧ 2 ≤ u8 f 4)) → ∃ e, claim f s = .error e) ∧
    (batchFlag f = false → (code = 23 → u8 f 4 ≤ 1) → ∃ u r, claim f s = .ok (u, r)) := by
  simp only [lineRows, List.mem_cons, List.not_mem_nil, or_false, Prod.mk.injEq] at hrow
  rcases hrow with ⟨rfl, rfl, rfl⟩ | ⟨rfl, rfl, rfl⟩
  · refine ⟨fun h => ?_, fun hb hp => ?_⟩
    · cases hb : batchFlag f with
      | true => exact ⟨_, by rw [configLine, noBatchFlag_of_set hb, verdict_error_bind]⟩
      | false =>
        have hp : 2 ≤ u8 f 4 := (h.resolve_left (by simp [hb])).2
        exact ⟨_, by rw [configLine_of_clear hb, finOf_of_eq hl, polarityOf_eq_none hp]; rfl⟩
    · obtain ⟨p, hpol⟩ : ∃ p, polarityOf (u8 f 4) = some p := by
        have := hp rfl
        interval_cases u8 f 4 <;> exact ⟨_, rfl⟩
      exact ⟨_, _, by rw [configLine_of_clear hb, finOf_of_eq hl, hpol]; rfl⟩
  · refine ⟨fun h => ?_, fun hb _ => ?_⟩
    · have hb : batchFlag f = true := h.resolve_right (by simp)
      exact ⟨_, by rw [lineStatus, noBatchFlag_of_set hb, verdict_error_bind]⟩
    · exact ⟨_, _, by rw [lineStatus_of_clear hb, finOf_of_eq hl]; rfl⟩

end Before

/-! ### The walk -/

theorem foldl_meet_of_passed {sp : Span} {d : Travel} {parts : List Stretch} {s : State} {met : List SlotNo}
    (h : ∀ i ∈ met, meet sp d parts s i = s) : met.foldl (meet sp d parts) s = s := by
  induction met with
  | nil => rfl
  | cons i met ih =>
    rw [List.foldl_cons, h i List.mem_cons_self]
    exact ih fun j hj => h j (List.mem_cons_of_mem _ hj)

/-- A walk that fires no record changes nothing. -/
theorem walk_of_none_fires {s : State} {n : AxisNo} {sp : Span} {p p' : Int}
    (h : ∀ d, travelOf sp p p' = some d → ∀ i ∈ metSet s.store n d (crossed sp d p p'), ∀ r, liveAt s.store i = some r →
      ¬ (r.state = .armed ∧ Admitted s.gates d r)) : walk n sp p p' s = s := by
  unfold walk
  split
  · rfl
  next d hd =>
    refine foldl_meet_of_passed fun i hi => ?_
    cases hr : liveAt s.store i with
    | none => exact meet_of_not_live sp d _ hr
    | some r => exact meet_of_passed sp d _ hr (h d hd i hi r hr)

theorem axes_walk (n : AxisNo) (sp : Span) (p p' : Int) (s : State) : (walk n sp p p' s).axes = s.axes := by
  rw [walk_frame]

theorem positionUpdate_eq (n : AxisNo) (p' : Int) (s : State) :
    positionUpdate n p' s =
      setStore (settle (walk n s.axes[n].config.span s.axes[n].position p' s).store)
        (setAxis n { s.axes[n] with position := p' } (walk n s.axes[n].config.span s.axes[n].position p' s)) := by
  simp only [positionUpdate, axes_walk]

/-- Settles O44. -/
theorem updateTakesItsRecordsInOrder : Obligations.UpdateTakesItsRecordsInOrder := by
  refine ⟨fun sp d parts s i => ⟨meet_of_not_live sp d parts, fun r hr => ?_⟩,
    fun s n sp p p' => ⟨fun h => ?_, fun d h => ?_⟩, fun s n p' => ⟨positionUpdate_eq n p' s, axes_walk _ _ _ _ _, fun h => ?_⟩⟩
  · intro admitted fired chosen
    refine ⟨fun hpass => meet_of_passed sp d parts hr (by tauto), fun ha hadm => ?_⟩
    have hmeet : meet sp d parts s i = fired (beforeClaim r.line s) := meet_of_fired sp d parts hr ha hadm
    have hnone (h : lineRequestAt r.line chosen = none) : meet sp d parts s i = fired s := by
      rw [hmeet, beforeClaim_of_refused h]
    have hsome {t : State} (h : lineRequestAt r.line chosen = some t) :
        meet sp d parts s i = fired (if Config.lineRequestFirst s.choices then t else chosen) := by
      rw [hmeet, beforeClaim_of_request h]
    refine ⟨fun hidle => ?_, fun f hf => ⟨fun hrefused => ?_, fun c hread hwaits => ?_⟩, fun f c code hrow hf => ?_⟩
    · refine hnone (Option.eq_none_iff_forall_ne_some.2 fun t ht => ?_)
      obtain ⟨g, _, hg, -⟩ | ⟨g, _, _, ⟨hg, -⟩ | ⟨hg, -⟩, -⟩ := lineRequestAt_cases ht <;> obtain ⟨hdrive, hconfig, hstatus⟩ := hidle g
      · exact hdrive hg
      · exact hconfig hg
      · exact hstatus hg
    · refine hnone (Option.eq_none_iff_forall_ne_some.2 fun t ht => ?_)
      obtain ⟨c, hread, hwaits⟩ := drives_of_lineRequestAt (s := chosen) hf ht
      obtain hother | ⟨e, he⟩ | ⟨k, hk, hreq⟩ := hrefused
      · exact hother (line_of_readDrive hread)
      · rw [he] at hread
        cases hread
      · rw [driveWaits_eq_false_iff.1 hwaits k hk] at hreq
        cases hreq
    · exact hsome (lineRequestAt_of_drive (s := chosen) hf hread hwaits)
    · obtain ⟨claim, hrow⟩ : ∃ claim, (c, code, claim) ∈ lineRows := by
        simp only [List.mem_cons, List.not_mem_nil, or_false, Prod.mk.injEq] at hrow
        rcases hrow with ⟨rfl, rfl⟩ | ⟨rfl, rfl⟩
        · exact ⟨configLine, by simp [lineRows]⟩
        · exact ⟨lineStatus, by simp [lineRows]⟩
      have hat := lineRequestAt_of_row (l := r.line) (s := chosen) hrow hf
      refine ⟨fun hother => hnone (hat.trans (servedAt_of_other_line (s := chosen) hf hother)), fun hl => ?_⟩
      obtain ⟨hrefuses, hgrants⟩ := lineRow_refuses (s := chosen) hrow hl
      refine ⟨fun hbad => ?_, fun hb hp => ?_⟩
      · obtain ⟨e, he⟩ := hrefuses hbad
        exact hnone (hat.trans (servedAt_of_error (s := chosen) hf he))
      · obtain ⟨u, x, hok⟩ := hgrants hb hp
        refine ⟨respond f x u, ?_, hsome (hat.trans (servedAt_of_ok (s := chosen) hf hok hl))⟩
        rw [exec_of_row (s := chosen) hrow hf, hok, answer_ok]
  · simp only [walk, h]
  · simp only [walk, h]
  · have hwalk : walk n s.axes[n].config.span s.axes[n].position p' s = s := by
      refine walk_of_none_fires fun d hd i hi r hr ⟨ha, hrise, hfall, hgate⟩ => ?_
      obtain hstate | hq | hq | ⟨g, hg, hlevel⟩ := h d hd i hi r hr
      · exact hstate ha
      · exact hrise hq
      · exact hfall hq
      · exact hlevel (hgate g hg)
    rw [positionUpdate_eq, hwalk]

end Sys2Proof.Machine
end
